-- ==== Sys2Proof/Word.lean ====
section
/-! DEFINITION. The plain types every file uses: words, tags and the indices of slots, stations, channels and
ring descriptors (spec/00_scope.md, Conventions). -/

namespace Sys2Proof

/-- A word of the host bus and of a sample stream: 32 bits. -/
abbrev Word := BitVec 32

/-- A stream tag, 1 to 255; 0 means no tag. -/
abbrev Tag := BitVec 8

/-- A slot index, 0 to 31; a shape of N slots uses 0 to N-1. -/
abbrev Slot := Fin 32

/-- A station id, 0 to 31. -/
abbrev StationId := Fin 32

/-- A talk channel, 0 to 7. -/
abbrev TalkId := Fin 8

/-- A listen channel, 0 to 7. -/
abbrev ListenId := Fin 8

/-- A channel as CLOSE, the Fill index words and the event records number it: 0 to 7 talk, 8 to 15 listen. -/
abbrev ChannelId := Fin 16

/-- A ring index; its arithmetic is modulo 32. -/
abbrev RingIndex := Fin 32

end Sys2Proof
end

