-- ==== Sys2Proof/Syntax.lean ====
section
/-! DEFINITION. The commands of the block: one constructor for each row of spec/opcode_table.json. -/

namespace Sys2Proof.Machine

/-- The bits of a data burst as LIF reads or sends them (R172), divided where the format divides them: the start bit
and the 22 header bits (first bit read highest), the payload words that the count field covers (each bit 31 first)
and the check that follows them. Payload words past the count are not on the line. Where the header is malformed LIF
looks for no check and reads to the end of the slot (R16): the eight words, the check and the `tail` are then the 297
bits that follow the header. -/
structure LineBurst where
  header  : BitVec 23
  payload : Vector Word 8
  check   : BitVec 16
  tail    : BitVec 25 := BitVec.allOnes 25
deriving DecidableEq, Repr

end Sys2Proof.Machine

namespace Sys2Proof

open Machine (LineBurst)

/-- The commands. The twelve mailbox commands are code writes: their parameters are the parameter words State
holds at that moment (R151). -/
inductive Instr where
  /-- Code write 1 (R23). -/
  | start
  /-- Code write 2 (R25). -/
  | join
  /-- Code write 3 (R27, R28, R34). -/
  | leave
  /-- Code write 4 (R40, R156). -/
  | reset
  /-- Code write 5 (R107). -/
  | openTalk
  /-- Code write 6 (R124). -/
  | openListen
  /-- Code write 7 (R154). -/
  | close
  /-- Code write 8 (R103, R154). -/
  | resume
  /-- Code write 9 (R67). -/
  | claim
  /-- Code write 10 (R68). -/
  | release
  /-- Code write 11 (R158). -/
  | readStatus
  /-- Code write 12 (R64). -/
  | readMap
  /-- A code write whose low byte names no command (R151). -/
  | unknownCommand (code : BitVec 8)
  /-- A code write, not of RESET, that meets a BUSY mailbox (R151). -/
  | lostCommandWrite (code : BitVec 8)
  /-- A host write to a channel's Fill index word (R90, R157). -/
  | fillIndexWrite (channel : ChannelId) (value : Word)
  /-- A host write to the flag word (R161). -/
  | flagWrite (value : Word)
  /-- A host read of the pop word (R169). -/
  | pop
  /-- A host write to any other word of the window, named by its word index, offset / 4 (R176). -/
  | windowWriteIgnored (index : BitVec 7) (value : Word)
  /-- Supply comes up (R38). -/
  | powerOnReset
  /-- RST_N is asserted (R39). -/
  | rstNAssert
  /-- RST_N is released (R39). -/
  | rstNRelease
  /-- E reaches P; the operand says whether the line is idle then (R5). -/
  | periodReached (lineIdle : Bool)
  /-- A waiting station finds the line idle; the operand is E, in bit times, at that moment (R5). -/
  | lineIdleMarker (time : Nat)
  /-- The last bit of the own marker is read back, all 24 matching (R6). -/
  | ownMarkerSent
  /-- A heard marker's last bit is read: E, in bit times, at its first bit, and the 24 bits (R7). For a marker the
  station began itself the first bit is the station's own (R6). -/
  | heardMarker (began : Nat) (bits : BitVec 24)
  /-- E reaches 2P (R10). -/
  | lineStuckTimeout
  /-- A fault cause that waits at STC is taken (R31). -/
  | faultEntry
  /-- The claim window opens (R70). -/
  | claimWindowOpen
  /-- The claim window has been read: start bit and 27 message bits, first bit highest (R13). -/
  | claimWindowResult (line : BitVec 28)
  /-- The next slot of the round opens; the operand is the level of its first bit where the station sends no burst,
  true for recessive (R14, R16). -/
  | slotOpen (startRecessive : Bool)
  /-- The own burst's last bit is read back; the operand is the readback (R15, R112). -/
  | burstSent (readback : LineBurst)
  /-- A burst received in a slot where the station did not transmit ends (R16). -/
  | burstReceived (burst : LineBurst)
  /-- The boundary reaches SMAP (R47). -/
  | slotMapBoundaryWork
  /-- The settled notice reaches CLE (R74). -/
  | claimSettle
  /-- The settled notice reaches TKE (R120). -/
  | talkBoundaryWork
  /-- The settled notice reaches LNE (R125). -/
  | listenBoundaryWork
  /-- The boundary reaches STC (R26). -/
  | stationBoundaryWork
  /-- The arbiter's turn (R142). -/
  | arbiterGrant
  /-- The host bus answers the oldest outstanding request: an error, or OK with the words of a READ first in
  `data` (R143, R144). -/
  | memoryResponse (error : Bool) (data : Vector Word 8)
  /-- Recognition of a marker that began at E = `began` ends at the pattern bit after `matched` matching ones (R2). -/
  | markerRecognitionEnded (began matched : Nat)
deriving DecidableEq, Repr

end Sys2Proof
end

