-- ==== Sys2Proof/WellFormed.lean ====
section
/-! DEFINITION. Which commands are the row they name: an operand that belongs to another row is ill formed. -/

namespace Sys2Proof

/-- The window words that have rows of their own: flags, code, pop (a read) and the Fill index words; R175 gives
their offsets, divided by 4 here. -/
def ownRowWord (index : BitVec 7) : Bool :=
  index == 2#7 || index == 3#7 || (14 ≤ index.toNat && index.toNat ≤ 29)

/-- The checks on operands: an unknown code names no command (R151, R175), a lost code is not RESET (R151), an ignored
window write names no word with a row of its own (R176), a received burst and a claim window start as their rows say
(R16), and recognition ended at one of the 15 pattern bits after the first (R2). -/
def Instr.wellFormed : Instr → Bool
  | .unknownCommand code => code == 0#8 || 12 < code.toNat
  | .lostCommandWrite code => code != 4#8
  | .windowWriteIgnored index _ => !ownRowWord index
  | .burstReceived burst => !burst.header.getMsbD 0
  | .markerRecognitionEnded _ matched => 1 ≤ matched && matched ≤ 15
  | .start | .join | .leave | .reset | .openTalk | .openListen | .close | .resume | .claim | .release
  | .readStatus | .readMap | .fillIndexWrite .. | .flagWrite _ | .pop | .powerOnReset | .rstNAssert | .rstNRelease
  | .periodReached _ | .lineIdleMarker _ | .ownMarkerSent | .heardMarker .. | .lineStuckTimeout | .faultEntry
  | .claimWindowOpen | .claimWindowResult _ | .slotOpen _ | .burstSent _ | .slotMapBoundaryWork | .claimSettle
  | .talkBoundaryWork | .listenBoundaryWork | .stationBoundaryWork | .arbiterGrant | .memoryResponse .. => true

end Sys2Proof
end

