-- ==== Sys2Proof/Decode.lean ====
section
/-! DEFINITION. The decoder: no row of spec/opcode_table.json has bits ("fields" is empty in every row, and
spec/98_reader.md counts 0 rows with fixed bits), so no word spells a command. -/

namespace Sys2Proof

/-- The command an opcode-table word spells: none, for the table gives no row any bits. -/
def decodeTableWord (_nbits _w : Nat) : Option Instr :=
  none

end Sys2Proof
end

