-- ==== Sys2Proof/Config.lean ====
section
/-! DEFINITION. The constants the manual fixes. Nothing here is a choice of the model: each constant cites its rule. -/

namespace Sys2Proof.Config

/-- The signalling rate: 20 bit times of 50 ns make one microsecond (section 1.1). -/
def bitsPerMicrosecond : Nat := 20

/-- The line is idle after 20 recessive bit times (R2). -/
def idleBits : Nat := 20

/-- The claim window opens 4 µs after the marker's first bit (R3). -/
def windowOpens : Nat := 80

/-- Slot 0 opens 8 µs after the marker's first bit (R3). -/
def slotsOpen : Nat := 160

/-- A slot lasts 16 µs (R3). -/
def slotBits : Nat := 320

/-- The marker pattern (R172). -/
def markerPattern : BitVec 16 := 0x16CF#16

/-- The longest round period, in microseconds (R3, R23). -/
def maxPeriod : Nat := 4000

/-- Boundaries of the learn period (R26). -/
def learnRounds : Nat := 8

/-- Rounds in a receive-quality window (R35). -/
def windowRounds : Nat := 64

/-- Silent rounds after which a peer's entry expires, and the length of a quarantine (R53, R55). -/
def lease : Nat := 8

/-- Words of a staging or deposit buffer (R105, R122). -/
def bufferWords : Nat := 16

/-- Most words of one burst and of one memory request (R111, R139). -/
def burstWords : Nat := 8

/-- A channel makes a fetch or data request only while its list holds fewer than this (R98). -/
def requestLimit : Nat := 16

/-- Most requests in the claim queue (R65). -/
def claimPlaces : Nat := 8

/-- Most requests outstanding on the host bus (R141). -/
def outstandingPlaces : Nat := 4

/-- Most records in the event queue (R167). -/
def eventPlaces : Nat := 32

/-- Where the 16-bit counts stop (R18, R105, R122, R168). -/
def countLimit : Nat := 65535

/-- The ID word: part 0x3240, revision 1 (R175). -/
def idWord : Word := 0x32400001#32

/-- The slot parameter of CLAIM that stands for ANY (R177). -/
def anySlot : Nat := 255

end Sys2Proof.Config
end

