-- ==== Sys2Proof/Machine/State.lean ====
section
/-! DEFINITION. The state of the part, block by block, as plain data; the reasons a step may stop; the machine right
after power-on reset. A field the manual calls optional is an Option: absent is not zero (spec/00_scope.md). -/

namespace Sys2Proof.Machine

/-! ## Station Controller (chapter 2) -/

/-- The six station states (R21). -/
inductive StationState where
  | off | ready | listening | joined | leaving | fault
deriving DecidableEq, Repr

/-- The link states: LISTENING, JOINED and LEAVING (section 2.1). -/
def StationState.inLink : StationState → Bool
  | .listening | .joined | .leaving => true
  | .off | .ready | .fault => false

/-- The shape of a round (section 1.2). -/
inductive Shape where
  | slots8 | slots16 | slots32
deriving DecidableEq, Repr

/-- The classes the event class mask chooses among (section 2.2). -/
structure EventMask where
  claim   : Bool
  slot    : Bool
  data    : Bool
  trouble : Bool
deriving DecidableEq, Repr

/-- The START record (section 2.2). -/
structure StartRecord where
  id         : StationId
  shape      : Shape
  period     : Nat
  retryLimit : Nat
  mask       : EventMask
deriving DecidableEq, Repr

/-- The causes of FAULT (R31). -/
inductive FaultCause where
  | shape | stuck | duplicateId
deriving DecidableEq, Repr

/-- The receive-quality band (R36). -/
inductive Band where
  | good | degraded
deriving DecidableEq, Repr

/-- The Slot Map's duplicate-id report: the lowest clashing slot and its burst's tag (R48). -/
structure DuplicateReport where
  slot : Slot
  tag  : Tag
deriving DecidableEq, Repr

/-- STC (R22), with the duplicate-id report that has reached it and is not yet taken (R31). -/
structure Stc where
  state        : StationState
  start        : Option StartRecord
  cause        : Option FaultCause
  learn        : Nat
  leavePending : Bool
  leaveMarks   : Vector Bool 8
  band         : Band
  windowRounds : Nat
  windowErrors : Nat
  report       : Option DuplicateReport
deriving DecidableEq, Repr

/-! ## Round Timer and Line Interface (chapter 1) -/

/-- RTM (R4). `elapsed` is E in bit times, absent while stopped; `lastMarker` is the starting time of the last
accepted marker, in bit times from JOIN (DEDUCED, log entry 3); `mismatchSeen` says that a mismatching marker came in
this round (R9). -/
structure Rtm where
  elapsed      : Option Nat
  lastMarker   : Option Nat
  counter      : BitVec 32
  strike       : Bool
  mismatchSeen : Bool
deriving DecidableEq, Repr

/-- The two kinds of claim message and of request (R65). -/
inductive ClaimKind where
  | release | claim
deriving DecidableEq, Repr

/-- A claim message's fields, less its check (section 1.5). -/
structure ClaimMessage where
  kind    : ClaimKind
  slot    : Slot
  station : StationId
  tag     : Tag
deriving DecidableEq, Repr

/-- The two kinds of burst (section 1.6). -/
inductive BurstKind where
  | fill | data
deriving DecidableEq, Repr

/-- A burst's fields, less its check; count is the number of words (section 1.6). -/
structure Burst where
  owner    : StationId
  tag      : Tag
  kind     : BurstKind
  sequence : BitVec 4
  words    : List Word
deriving DecidableEq, Repr

/-- What LIF is doing on the line: nothing; sending a marker whose first bit went out at E = `began` (R6); in the
claim window, with the message handed to it (R11); sending a burst (R14); receiving one (R16). -/
inductive Activity where
  | idle
  | marker (began : Nat)
  | window (sent : Option ClaimMessage)
  | sending (slot : Slot) (burst : Burst)
  | receiving (slot : Slot)
deriving DecidableEq, Repr

/-- LIF (R1, R2, R18). `opened` counts the elements of the round opened so far, the claim window and then the slots
in order; `lastDominant` is E at the end of the last dominant bit read, for the idle rule (R2); `watchesFrom` is E at
the end of the last element LIF sent or received, from which on it watches for a marker (R2). -/
structure Lif where
  activity     : Activity
  opened       : Nat
  lastDominant : Nat
  watchesFrom  : Nat
  markerEarly  : Nat
  claimCheck   : Nat
  burstCheck   : Nat
deriving DecidableEq, Repr

/-! ## Slot Map (chapter 3) -/

/-- One map entry (R41). `own` is OWNED by the station itself, `peer` OWNED by another station; each carries only the
fields present for it. -/
inductive Entry where
  | free
  | own (tag : Tag) (rival : Option StationId) (mismatches : Nat)
  | peer (owner : StationId) (tag : Tag) (silent : Nat) (rival : Option StationId)
  | quarantine (remaining : Nat)
deriving DecidableEq, Repr

/-- One slot's observation in the round record (R43). -/
inductive Observation where
  | silent
  | bad
  | valid (owner : StationId) (tag : Tag)
  | sentMatch (tag : Tag)
  | sentMismatch (readback : Option (StationId × Tag))
deriving DecidableEq, Repr

/-- The station's own part in a claim window (R13, R44). -/
inductive WindowPart where
  | won | lost | notSent
deriving DecidableEq, Repr

/-- SMAP: the entries, the round record, the abandon set and the last applied stamp (R41, R43 to R47). -/
structure Smap where
  entries      : Vector Entry 32
  observations : Vector (Option Observation) 32
  message      : Option ClaimMessage
  part         : WindowPart
  abandon      : List Slot
  stamp        : BitVec 16
deriving DecidableEq, Repr

/-! ## Claim Engine (chapter 4) -/

/-- The phase of a request (R65). -/
inductive Phase where
  | waiting | sentWon
deriving DecidableEq, Repr

/-- A request of the claim queue (R65); `slot` absent is ANY. -/
structure ClaimRequest where
  kind     : ClaimKind
  channel  : TalkId
  slot     : Option Slot
  tag      : Tag
  attempts : Nat
  sentSlot : Option Slot
  phase    : Phase
deriving DecidableEq, Repr

/-- The causes a claim outcome carries (R177). -/
inductive ClaimCause where
  | ownedSeen | contested | closed | leave | fault | slotLost
deriving DecidableEq, Repr

/-- CLE: the queue, the message on the line (named by its request's channel, for a channel has at most one request),
and the cause with which that request is withdrawn if it loses, once a CLOSE or a LEAVE has been taken (R79, R28). -/
structure Cle where
  queue    : List ClaimRequest
  onLine   : Option TalkId
  lineEnds : Option ClaimCause
deriving DecidableEq, Repr

/-! ## Descriptor rings and channels (chapters 5 to 7) -/

/-- The part's copy of words 0 and 1 of a descriptor (R85, R174). -/
structure Descriptor where
  address : Word
  length  : Nat
  event   : Bool
  final   : Bool
deriving DecidableEq, Repr

/-- The condition of a taken descriptor (R88): FETCHING, HELD, or with a failure pending: BAD, FETCH_ERROR or
READ_ERROR. -/
inductive Taken where
  | fetching
  | held (d : Descriptor)
  | bad (d : Descriptor)
  | fetchError
  | readError (d : Descriptor)
deriving DecidableEq, Repr

/-- The ring state of one channel (R87). -/
structure Ring where
  base     : Word
  ci       : RingIndex
  fi       : RingIndex
  current  : Option Taken
  ahead    : Option Taken
  position : Nat
deriving DecidableEq, Repr

/-- Why a channel made a memory request (R139). -/
inductive Purpose where
  | descFetch | dataRead | dataWrite | writeback
deriving DecidableEq, Repr

/-- An entry of a channel's request list (R105, R122): purpose, stale mark, the descriptor it belongs to, its words,
and for a writeback whether it carried result OK and the EVENT flag of the descriptor's copy (R99). -/
structure RequestEntry where
  purpose : Purpose
  stale   : Bool
  index   : RingIndex
  words   : Nat
  ok      : Bool
  event   : Bool
deriving DecidableEq, Repr

/-- Causes of a halt (R102). -/
inductive HaltCause where
  | badDescriptor | memory | endBuffer
deriving DecidableEq, Repr

/-- What brings a channel to HALTED (R102): the current failed validation (R95), its fetch failed (R96), a data
request failed (R101), a writeback failed (R100), or an END listen buffer completed (R134). -/
inductive HaltReason where
  | badDescriptor
  | fetchFailed
  | dataFailed
  | writebackFailed (index : RingIndex)
  | endBuffer
deriving DecidableEq, Repr

/-- What the ring rules share between talk and listen channels: the ring state and the request list. -/
structure ChannelCore where
  ring     : Ring
  requests : List RequestEntry
deriving DecidableEq, Repr

/-- Talk channel states (R106). -/
inductive TalkState where
  | closed | armed | running | starved | halted
deriving DecidableEq, Repr

/-- A staged word with its descriptor index (R105). -/
structure StagedWord where
  index : RingIndex
  word  : Word
deriving DecidableEq, Repr

/-- A talk channel context (R105). `heldHalts` are the halts held until the report of the burst on the line, in the
order they reached the channel (R118, DEDUCED, log entry 15); `resumeWaits` says that a RESUME waits for TKE's boundary
work (R103). -/
structure Talk extends ChannelCore where
  state       : TalkState
  tag         : Option Tag
  bound       : Option Slot
  staging     : List StagedWord
  readPoint   : Option (RingIndex × Nat)
  onLine      : Option (List StagedWord)
  sequence    : Option (BitVec 4)
  endWait     : Bool
  closeTaken  : Bool
  haltCause   : Option HaltCause
  wordsSent   : BitVec 32
  lateCount   : Nat
  heldHalts   : List HaltReason
  resumeWaits : Bool
deriving DecidableEq, Repr

/-- Listen channel states (R123). -/
inductive ListenState where
  | closed | waiting | receiving | starved | halted
deriving DecidableEq, Repr

/-- A deposited word with its burst's sequence (R122). -/
structure DepositWord where
  word     : Word
  sequence : BitVec 4
deriving DecidableEq, Repr

/-- An open drop episode: words dropped and the slot of the last dropped burst (R130). -/
structure Episode where
  words : Nat
  slot  : Slot
deriving DecidableEq, Repr

/-- Where a listen CLOSE stands (R122). -/
inductive CloseStage where
  | none | taken | applied
deriving DecidableEq, Repr

/-- A listen channel context (R122). The deposit is the words in a write followed by the words waiting. -/
structure Listen extends ChannelCore where
  state         : ListenState
  tag           : Option Tag
  bound         : Option Slot
  expected      : Option (BitVec 4)
  lastSequence  : Option (BitVec 4)
  inWrite       : List DepositWord
  waiting       : List DepositWord
  writePoint    : Option (RingIndex × Nat)
  episode       : Option Episode
  duplicate     : Bool
  close         : CloseStage
  haltCause     : Option HaltCause
  wordsReceived : BitVec 32
  resumeWaits   : Bool
deriving DecidableEq, Repr

/-! ## Memory Port (chapter 8) -/

/-- A memory request (R139); its kind follows from its purpose. -/
structure MemRequest where
  purpose   : Purpose
  address   : Word
  words     : Nat
  requester : ChannelId
  data      : List Word
deriving DecidableEq, Repr

/-- MPT (R140, R141, R147). -/
structure Mpt where
  waiting     : Vector (List MemRequest) 16
  outstanding : List MemRequest
  absorb      : Nat
  pointer     : ChannelId
deriving DecidableEq, Repr

/-! ## Host Port and Event Queue (chapters 9 and 10) -/

/-- Mailbox result codes (R175). -/
inductive ResultCode where
  | ok | badState | badParam | channelState | queueFull | duplicate
deriving DecidableEq, Repr

/-- The mailbox state, with the code of the command in progress or done (R150). -/
inductive Mailbox where
  | idle
  | busy (code : BitVec 8)
  | done (result : ResultCode) (code : BitVec 8)
deriving DecidableEq, Repr

/-- The five flags (R161). -/
structure Flags where
  powerUp       : Bool
  commandLost   : Bool
  shapeMismatch : Bool
  lineStuck     : Bool
  eventOverflow : Bool
deriving DecidableEq, Repr

/-- HPT (R150, R160, R161). -/
structure Hpt where
  mailbox  : Mailbox
  code     : BitVec 8
  params   : Vector Word 4
  snapshot : Vector Word 40
  flags    : Flags
deriving DecidableEq, Repr

/-- The kinds of event record (section 10.2), NONE for the head words of an empty pop. -/
inductive EventKind where
  | none
  | linkJoined | linkLeft | faultEntered | bandChanged | resetDone
  | granted | refused | expired | withdrawn | noSlot | released | releaseExpired
  | slotLost
  | bufferDone | streamBound | streamGone | channelStarved
  | channelHalted | writebackFailed | fillRejected | sequenceGap | duplicateTag | dropEpisode
  | eventsLost
deriving DecidableEq, Repr

/-- An event record (R165); its class follows from its kind. -/
structure EventRecord where
  kind    : EventKind
  channel : Option ChannelId
  slot    : Option Slot
  station : Option StationId
  tag     : Option Tag
  detail  : BitVec 16
  stamp   : BitVec 16
deriving DecidableEq, Repr

/-- The record of kind NONE (R169). -/
def EventRecord.nothing : EventRecord :=
  { kind := .none, channel := none, slot := none, station := none, tag := none, detail := 0, stamp := 0 }

/-- EVQ: the queue, oldest first, the dropped count and the record in the head words (R167, R169). -/
structure Evq where
  queue   : List EventRecord
  dropped : Nat
  head    : EventRecord
deriving DecidableEq, Repr

/-! ## The part -/

/-- The boundary work still to be done for the last round boundary, block by block (R8). CLE, TKE and LNE have work
from the settled notice on (R62). That the shares wait separately is a DESIGN CHOICE (log entry 4). -/
structure BoundaryWork where
  slotMap : Bool
  claims  : Bool
  talk    : Bool
  listen  : Bool
  station : Bool
deriving DecidableEq, Repr

/-- The state of the part. `rstHeld` is the level of the reset pin; `pending` is the model's own queue of waiting
commands, first in, first out (DESIGN CHOICE, log entry 1). -/
structure State where
  stc      : Stc
  rtm      : Rtm
  lif      : Lif
  smap     : Smap
  cle      : Cle
  talk     : Vector Talk 8
  listen   : Vector Listen 8
  mpt      : Mpt
  hpt      : Hpt
  evq      : Evq
  boundary : BoundaryWork
  rstHeld  : Bool
  pending  : List Instr
deriving DecidableEq, Repr

/-- The reasons a command ends in a fault. There is none: the block has no exception, and every command has an
effect (a station's FAULT and a channel's HALTED are states, R31, R102). -/
inductive Fault where
deriving DecidableEq, Repr

/-- The reasons a command is refused. -/
inductive Refusal where
  /-- A command without a meaning: raised by exec's refused arms only, and there is none left. Safe. -/
  | notModelled (mnemonic : String)
deriving DecidableEq, Repr

/-! ## Power-on values -/

/-- STC after power-on reset (R22). -/
def Stc.powerOn : Stc :=
  { state := .off, start := none, cause := none, learn := 0, leavePending := false,
    leaveMarks := Vector.replicate 8 false, band := .good, windowRounds := 0, windowErrors := 0, report := none }

/-- RTM stopped, with its counter at 0 (R4). -/
def Rtm.stopped : Rtm :=
  { elapsed := none, lastMarker := none, counter := 0, strike := false, mismatchSeen := false }

/-- LIF after power-on reset (R18). -/
def Lif.powerOn : Lif :=
  { activity := .idle, opened := 0, lastDominant := 0, watchesFrom := 0, markerEarly := 0, claimCheck := 0,
    burstCheck := 0 }

/-- SMAP after every reset and on JOIN (R46). -/
def Smap.clear : Smap :=
  { entries := Vector.replicate 32 .free, observations := Vector.replicate 32 none, message := none,
    part := .notSent, abandon := [], stamp := 0 }

/-- CLE after every reset (R65). -/
def Cle.clear : Cle :=
  { queue := [], onLine := none, lineEnds := none }

/-- A channel's ring state and request list after every reset (R87, R105, R122). -/
def ChannelCore.clear : ChannelCore :=
  { ring := { base := 0, ci := 0, fi := 0, current := none, ahead := none, position := 0 }, requests := [] }

/-- A talk channel after every reset (R105). -/
def Talk.clear : Talk :=
  { ChannelCore.clear with
    state := .closed, tag := none, bound := none, staging := [], readPoint := none, onLine := none, sequence := none,
    endWait := false, closeTaken := false, haltCause := none, wordsSent := 0, lateCount := 0, heldHalts := [],
    resumeWaits := false }

/-- A listen channel after every reset (R122). -/
def Listen.clear : Listen :=
  { ChannelCore.clear with
    state := .closed, tag := none, bound := none, expected := none, lastSequence := none, inWrite := [],
    waiting := [], writePoint := none, episode := none, duplicate := false, close := .none, haltCause := none,
    wordsReceived := 0, resumeWaits := false }

/-- MPT after power-on reset (R147). -/
def Mpt.powerOn : Mpt :=
  { waiting := Vector.replicate 16 [], outstanding := [], absorb := 0, pointer := 15 }

/-- HPT after power-on reset (R150, R160, R161). -/
def Hpt.powerOn : Hpt :=
  { mailbox := .idle, code := 0, params := Vector.replicate 4 0, snapshot := Vector.replicate 40 0,
    flags := { powerUp := true, commandLost := false, shapeMismatch := false, lineStuck := false,
               eventOverflow := false } }

/-- EVQ after power-on reset (R171). -/
def Evq.clear : Evq :=
  { queue := [], dropped := 0, head := .nothing }

/-- No boundary work waits. -/
def BoundaryWork.nothing : BoundaryWork :=
  { slotMap := false, claims := false, talk := false, listen := false, station := false }

/-- The part right after power-on reset (R38), with no command waiting. The values the manual states are in the
definitions above; those of the state it only implies are the model's (DESIGN CHOICE, log entry 22). -/
def State.reset : State :=
  { stc := .powerOn, rtm := .stopped, lif := .powerOn, smap := .clear, cle := .clear,
    talk := Vector.replicate 8 .clear, listen := Vector.replicate 8 .clear, mpt := .powerOn, hpt := .powerOn,
    evq := .clear, boundary := .nothing, rstHeld := false, pending := [] }

end Sys2Proof.Machine
end

