-- ==== Sys2Proof/Machine/Formats.lean ====
section
/-! DEFINITION. The layouts of chapter 11: line formats and their checks (R172, R173), descriptor words (R174), and the
codes of the register window (R175, R177). -/

namespace Sys2Proof.Machine

/-! ## Bits and checks (R172, R173) -/

/-- The bits of a field in the order they are sent: most significant first (R172). -/
def bitsOf {n : Nat} (x : BitVec n) : List Bool :=
  (List.range n).map x.getMsbD

/-- One covered bit of a check: shift, and add the generator's terms below its highest power on feedback (R173). -/
def checkStep {n : Nat} (generator : BitVec n) (register : BitVec n) (bit : Bool) : BitVec n :=
  if bit != register.msb then (register <<< 1) ^^^ generator else register <<< 1

/-- The check over the covered bits, in the order sent (R173). -/
def checkOf {n : Nat} (generator start : BitVec n) (bits : List Bool) : BitVec n :=
  bits.foldl (checkStep generator) start

/-- Marker check: x⁶ + x + 1, register starting at zeros (R173). -/
def markerCheck (covered : BitVec 18) : BitVec 6 :=
  checkOf 0x03#6 0#6 (bitsOf covered)

/-- Claim check: x⁸ + x² + x + 1, register starting at zeros (R173). -/
def claimCheck (covered : BitVec 19) : BitVec 8 :=
  checkOf 0x07#8 0#8 (bitsOf covered)

/-- Burst check: x¹⁶ + x¹² + x⁵ + 1, register starting at ones, over the 22 header bits and the payload (R173). -/
def burstCheck (header : BitVec 22) (words : List Word) : BitVec 16 :=
  checkOf 0x1021#16 0xFFFF#16 (bitsOf header ++ words.flatMap bitsOf)

/-- How many of the bits run up to and include the last dominant one: where the line last was not recessive (R2). -/
def dominantEnd : List Bool → Nat
  | [] => 0
  | b :: rest =>
    match dominantEnd rest with
    | 0 => if b then 0 else 1
    | d + 1 => d + 2

/-- A slot, station or ring index as 5 bits. -/
def bits5 (x : Fin 32) : BitVec 5 :=
  BitVec.ofNat 5 x.val

/-- Five bits as a slot or station. -/
def index5 (b : BitVec 5) : Fin 32 :=
  ⟨b.toNat, b.isLt⟩

/-! ## Markers -/

/-- Slots of a round, N (section 1.2). -/
def Shape.slots : Shape → Nat
  | .slots8 => 8
  | .slots16 => 16
  | .slots32 => 32

/-- Shape codes 0, 1 and 2 (section 1.2). -/
def Shape.code : Shape → Nat
  | .slots8 => 0
  | .slots16 => 1
  | .slots32 => 2

/-- The shortest period of a shape, 16 + 16N microseconds (section 1.2, R3). -/
def Shape.minPeriod (shape : Shape) : Nat :=
  16 + 16 * shape.slots

/-- The shape of a shape code; code 3 and above name none (R23). -/
def Shape.ofCode : Nat → Option Shape
  | 0 => some .slots8
  | 1 => some .slots16
  | 2 => some .slots32
  | _ => none

/-- The pattern and shape code of a marker with this code (R172). -/
def markerCovered (code : BitVec 2) : BitVec 18 :=
  Config.markerPattern ++ code

/-- A station's own marker, pattern, shape code and check (R172). -/
def ownMarker (shape : Shape) : BitVec 24 :=
  let covered := markerCovered (BitVec.ofNat 2 shape.code)
  covered ++ markerCheck covered

/-- The pattern field of 24 marker bits. -/
def markerPatternOf (bits : BitVec 24) : BitVec 16 :=
  bits.extractLsb' 8 16

/-- The shape code of 24 marker bits. -/
def markerCodeOf (bits : BitVec 24) : Nat :=
  (bits.extractLsb' 6 2).toNat

/-- A heard marker's check is good (R173). -/
def markerGood (bits : BitVec 24) : Bool :=
  markerCheck (bits.extractLsb' 6 18) == bits.extractLsb' 0 6

/-! ## Claim messages -/

/-- RELEASE is 0 and so dominant, CLAIM is 1 (section 1.5, R172). -/
def ClaimKind.bit : ClaimKind → BitVec 1
  | .release => 0#1
  | .claim => 1#1

/-- The 19 covered bits of a claim message (R172, R173). -/
def ClaimMessage.covered (m : ClaimMessage) : BitVec 19 :=
  m.kind.bit ++ bits5 m.slot ++ bits5 m.station ++ m.tag

/-- The 27 bits that follow the start bit (R11, R172). -/
def ClaimMessage.bits (m : ClaimMessage) : BitVec 27 :=
  m.covered ++ claimCheck m.covered

/-- The message 27 bits carry (R172). -/
def messageOf (bits : BitVec 27) : ClaimMessage :=
  { kind := if bits.getLsbD 26 then .claim else .release
    slot := index5 (bits.extractLsb' 21 5)
    station := index5 (bits.extractLsb' 16 5)
    tag := bits.extractLsb' 8 8 }

/-- The 27 bits have a good check (R173). -/
def messageGood (bits : BitVec 27) : Bool :=
  claimCheck (bits.extractLsb' 8 19) == bits.extractLsb' 0 8

/-! ## Bursts -/

/-- FILL is 0, DATA is 1 (R172). -/
def BurstKind.bit : BurstKind → BitVec 1
  | .fill => 0#1
  | .data => 1#1

/-- The 22 header bits of a burst (R172). -/
def Burst.header (b : Burst) : BitVec 22 :=
  bits5 b.owner ++ b.tag ++ b.kind.bit ++ BitVec.ofNat 4 b.words.length ++ b.sequence

/-- The bits LIF sends for a burst: start bit and header, then the words in order, then the check (R14, R172). -/
def Burst.line (b : Burst) : LineBurst :=
  { header := 0#1 ++ b.header
    payload := Vector.ofFn fun i => b.words.getD i.val 0
    check := burstCheck b.header b.words }

/-- The count field of burst bits. -/
def LineBurst.count (l : LineBurst) : Nat :=
  (l.header.extractLsb' 4 4).toNat

/-- The first n payload words. -/
def LineBurst.firstWords (l : LineBurst) (n : Nat) : List Word :=
  l.payload.toList.take n

/-- The burst the bits carry (R172). -/
def LineBurst.burst (l : LineBurst) : Burst :=
  { owner := index5 (l.header.extractLsb' 17 5)
    tag := l.header.extractLsb' 9 8
    kind := if l.header.getLsbD 8 then .data else .fill
    sequence := l.header.extractLsb' 0 4
    words := l.firstWords l.count }

/-- The header is malformed: count above 8, FILL with count not 0, or tag 0 (R16). -/
def LineBurst.malformed (l : LineBurst) : Bool :=
  Config.burstWords < l.count || (l.burst.kind == .fill && l.count != 0) || l.burst.tag == 0

/-- The check over what the bits carry equals the check read (R173). -/
def LineBurst.good (l : LineBurst) (check : BitVec 16) : Bool :=
  burstCheck (l.header.extractLsb' 0 22) (l.firstWords l.count) == check

/-- What LIF makes of a received burst: the burst if it is valid, nothing if it is bad or malformed (R16). -/
def LineBurst.valid (l : LineBurst) : Option Burst :=
  if !l.malformed && l.good l.check then some l.burst else none

/-- Bits of a burst of n words from start bit to last check bit (section 1.2). -/
def burstBits (n : Nat) : Nat :=
  39 + 32 * n

/-- The bits of a burst in the order they are on the line. -/
def LineBurst.bits (l : LineBurst) (n : Nat) : List Bool :=
  bitsOf l.header ++ (l.firstWords n).flatMap bitsOf ++ bitsOf l.check

/-- All 320 bits of the slot in which a burst with a malformed header is read (R2, R16). -/
def LineBurst.slotBits (l : LineBurst) : List Bool :=
  bitsOf l.header ++ l.payload.toList.flatMap bitsOf ++ bitsOf l.check ++ bitsOf l.tail

/-- The bits LIF reads of a received burst: to the end of the slot where the header is malformed (R2, R16). -/
def LineBurst.received (l : LineBurst) : List Bool :=
  if l.malformed then l.slotBits else l.bits l.count

/-- The readback of an own burst agrees in every bit with what was sent (R15). -/
def readbackMatches (sent : Burst) (readback : LineBurst) : Bool :=
  readback.header == sent.line.header && readback.firstWords sent.words.length == sent.words
    && readback.check == sent.line.check

/-- The check field of a readback whose count field is c, when the station sent n words: the 16 bits that follow the c
words (R15). -/
def readbackCheck (readback : LineBurst) (n : Nat) : BitVec 16 :=
  if readback.count < n then
    ((readback.payload.toList.getD readback.count 0).extractLsb' 16 16)
  else readback.check

/-- The burst a readback forms, if its header is well formed, its bits hold the whole burst and its check is good
(R15). No check covers the start bit (R173), and its level in the readback decides nothing here: R1 takes a slot whose
first bit reads recessive as empty where a burst is expected, and R15 names no such case (DESIGN CHOICE, log entry
33). -/
def readbackBurst (sent : Burst) (readback : LineBurst) : Option Burst :=
  if !readback.malformed && readback.count ≤ sent.words.length
      && readback.good (readbackCheck readback sent.words.length) then
    some readback.burst
  else none

/-! ## Descriptors (R174) -/

/-- The copy of words 0 and 1; bits 29:14 of word 1 are ignored (R174). -/
def descriptorOf (word0 word1 : Word) : Descriptor :=
  { address := word0
    length := (word1.extractLsb' 0 14).toNat
    event := word1.getLsbD 30
    final := word1.getLsbD 31 }

/-- The checks of R94: a length, a word-aligned address, and first and last byte in one 64 KiB region. -/
def Descriptor.valid (d : Descriptor) : Bool :=
  d.length != 0 && d.address.extractLsb' 0 2 == 0#2
    && d.address.toNat / 65536 == (d.address.toNat + 4 * d.length - 1) / 65536

/-- The results of a writeback (R86, R174). -/
inductive WritebackResult where
  | ok | partialUse | memory | bad
deriving DecidableEq, Repr

/-- Result codes of word 2 (R174). -/
def WritebackResult.code : WritebackResult → Nat
  | .ok => 0
  | .partialUse => 1
  | .memory => 2
  | .bad => 3

/-- A number placed at a bit of a word. -/
def place (value shift : Nat) : Word :=
  BitVec.ofNat 32 value <<< shift

/-- A bit placed at a bit of a word. -/
def placeBit (value : Bool) (shift : Nat) : Word :=
  place value.toNat shift

/-- Word 2: DONE, the result and the words transferred (R174). -/
def completionWord2 (result : WritebackResult) (transferred : Nat) : Word :=
  place (transferred % 16384) 0 ||| place result.code 28 ||| placeBit true 31

/-- Word 3: the round stamp and the optional sequence with its presence bit (R174). -/
def completionWord3 (stamp : BitVec 16) (sequence : Option (BitVec 4)) : Word :=
  match sequence with
  | none => place stamp.toNat 0
  | some q => place stamp.toNat 0 ||| place q.toNat 20 ||| placeBit true 24

/-! ## Codes of the register window (R175, R177) -/

/-- Station state codes of the LINK word (R175). -/
def StationState.code : StationState → Nat
  | .off => 0
  | .ready => 1
  | .listening => 2
  | .joined => 3
  | .leaving => 4
  | .fault => 5

/-- Band codes (R175, R177). -/
def Band.code : Band → Nat
  | .good => 0
  | .degraded => 1

/-- Fault cause codes (R177). -/
def FaultCause.code : FaultCause → Nat
  | .shape => 1
  | .stuck => 2
  | .duplicateId => 3

/-- Causes of REFUSED and WITHDRAWN (R177). -/
def ClaimCause.code : ClaimCause → Nat
  | .ownedSeen => 1
  | .contested => 2
  | .closed => 3
  | .leave => 4
  | .fault => 5
  | .slotLost => 6

/-- Causes of CHANNEL_HALTED (R177). -/
def HaltCause.code : HaltCause → Nat
  | .badDescriptor => 1
  | .memory => 2
  | .endBuffer => 3

/-- Mailbox result codes (R175). -/
def ResultCode.code : ResultCode → Nat
  | .ok => 0
  | .badState => 1
  | .badParam => 2
  | .channelState => 3
  | .queueFull => 4
  | .duplicate => 5

/-- Talk state codes (R177). -/
def TalkState.code : TalkState → Nat
  | .closed => 0
  | .armed => 1
  | .running => 2
  | .starved => 3
  | .halted => 4

/-- Listen state codes (R177). -/
def ListenState.code : ListenState → Nat
  | .closed => 0
  | .waiting => 1
  | .receiving => 2
  | .starved => 3
  | .halted => 4

/-- Event kind codes (R177). -/
def EventKind.code : EventKind → Nat
  | .none => 0
  | .linkJoined => 1
  | .linkLeft => 2
  | .faultEntered => 3
  | .bandChanged => 4
  | .resetDone => 5
  | .granted => 16
  | .refused => 17
  | .expired => 18
  | .withdrawn => 19
  | .noSlot => 20
  | .released => 21
  | .releaseExpired => 22
  | .slotLost => 32
  | .bufferDone => 48
  | .streamBound => 49
  | .streamGone => 50
  | .channelStarved => 51
  | .channelHalted => 64
  | .writebackFailed => 65
  | .fillRejected => 66
  | .sequenceGap => 67
  | .duplicateTag => 68
  | .dropEpisode => 69
  | .eventsLost => 80

/-- The classes of event records (R165). -/
inductive EventClass where
  | none | link | claim | slot | data | trouble | queue
deriving DecidableEq, Repr

/-- Class codes (R177). -/
def EventClass.code : EventClass → Nat
  | .none => 0
  | .link => 1
  | .claim => 2
  | .slot => 3
  | .data => 4
  | .trouble => 5
  | .queue => 6

/-- The class of each kind (section 10.2). -/
def EventKind.cls : EventKind → EventClass
  | .none => .none
  | .linkJoined | .linkLeft | .faultEntered | .bandChanged | .resetDone => .link
  | .granted | .refused | .expired | .withdrawn | .noSlot | .released | .releaseExpired => .claim
  | .slotLost => .slot
  | .bufferDone | .streamBound | .streamGone | .channelStarved => .data
  | .channelHalted | .writebackFailed | .fillRejected | .sequenceGap | .duplicateTag | .dropEpisode => .trouble
  | .eventsLost => .queue

/-- Event head word 0: kind, class and the presence bits (R177). -/
def EventRecord.head0 (r : EventRecord) : Word :=
  place r.kind.code 0 ||| place r.kind.cls.code 8 ||| placeBit r.channel.isSome 16 ||| placeBit r.slot.isSome 17
    ||| placeBit r.station.isSome 18 ||| placeBit r.tag.isSome 19

/-- Event head word 1: the optional fields, 0 where absent (R177). -/
def EventRecord.head1 (r : EventRecord) : Word :=
  place ((r.channel.map Fin.val).getD 0) 0 ||| place ((r.slot.map Fin.val).getD 0) 8
    ||| place ((r.station.map Fin.val).getD 0) 16 ||| place ((r.tag.map BitVec.toNat).getD 0) 24

/-- Event head word 2: the detail (R177). -/
def EventRecord.head2 (r : EventRecord) : Word :=
  place r.detail.toNat 0

/-- Event head word 3: the round stamp (R177). -/
def EventRecord.head3 (r : EventRecord) : Word :=
  place r.stamp.toNat 0

/-- The four event head words of a record (R177). -/
def EventRecord.headWord (r : EventRecord) : Fin 4 → Word
  | 0 => r.head0
  | 1 => r.head1
  | 2 => r.head2
  | 3 => r.head3

/-- The result word (R175): in IDLE 0, in BUSY its result-code field 0. -/
def Mailbox.word : Mailbox → Word
  | .idle => 0
  | .busy code => place 1 0 ||| place code.toNat 16
  | .done result code => place 2 0 ||| place result.code 8 ||| place code.toNat 16

/-- An entry's copy in a READ_MAP snapshot word (R64, R177), given the station's own id. -/
def Entry.word (self : StationId) : Entry → Word
  | .free => 0
  | .own tag rival mismatches =>
    place 1 0 ||| place self.val 8 ||| place tag.toNat 16 ||| placeBit rival.isSome 28 ||| place mismatches 29
  | .peer owner tag silent rival =>
    place 1 0 ||| place owner.val 8 ||| place tag.toNat 16 ||| place silent 24 ||| placeBit rival.isSome 28
  | .quarantine remaining => place 2 0 ||| place remaining 24

end Sys2Proof.Machine
end

