-- ==== Sys2Proof/Machine/Flags.lean ====
section
/-! DEFINITION. The flag word (R161, R175) and the counts that stop at a limit. -/

namespace Sys2Proof.Machine

/-- The flag word as the host reads it (R175). -/
def Flags.word (f : Flags) : Word :=
  placeBit f.powerUp 0 ||| placeBit f.commandLost 1 ||| placeBit f.shapeMismatch 2 ||| placeBit f.lineStuck 3
    ||| placeBit f.eventOverflow 4

/-- A host write clears each flag written with 1 and leaves the others (R161). -/
def Flags.clearedBy (f : Flags) (value : Word) : Flags :=
  { powerUp := f.powerUp && !value.getLsbD 0
    commandLost := f.commandLost && !value.getLsbD 1
    shapeMismatch := f.shapeMismatch && !value.getLsbD 2
    lineStuck := f.lineStuck && !value.getLsbD 3
    eventOverflow := f.eventOverflow && !value.getLsbD 4 }

/-- Every reset but power-on clears all flags but POWER_UP (R161). -/
def Flags.afterReset (f : Flags) : Flags :=
  { powerUp := f.powerUp, commandLost := false, shapeMismatch := false, lineStuck := false, eventOverflow := false }

/-- A count that stays where it reaches its limit (R18, R35, R105, R122, R130, R168). -/
def countUp (limit count n : Nat) : Nat :=
  min limit (count + n)

end Sys2Proof.Machine
end

