-- ==== Sys2Proof/Machine/Operands.lean ====
section
/-! DEFINITION. The parameters of the mailbox commands, read from the whole parameter words (R177). A function answers
nothing where the table of R177 gives BAD_PARAM. -/

namespace Sys2Proof.Machine

/-- A parameter word that names one of n things, whole and in range (R177). -/
def paramBelow (n : Nat) (w : Word) : Option (Fin n) :=
  if h : w.toNat < n then some ⟨w.toNat, h⟩ else none

/-- The mask bits of START's parameter 3 (R177). -/
def maskOf (w : Word) : EventMask :=
  { claim := w.getLsbD 8, slot := w.getLsbD 9, data := w.getLsbD 10, trouble := w.getLsbD 11 }

/-- The retry limit of START's parameter 3 (R177). -/
def retryLimitOf (w : Word) : Nat :=
  (w.extractLsb' 0 7).toNat

/-- START's record, if every field is in range (R23, R177). -/
def startRecordOf (params : Vector Word 4) : Option StartRecord :=
  match paramBelow 32 params[0], Shape.ofCode params[1].toNat with
  | some id, some shape =>
    if shape.minPeriod ≤ params[2].toNat && params[2].toNat ≤ Config.maxPeriod
        && 1 ≤ retryLimitOf params[3] && retryLimitOf params[3] ≤ 64 then
      some { id, shape, period := params[2].toNat, retryLimit := retryLimitOf params[3], mask := maskOf params[3] }
    else none
  | _, _ => none

/-- The parameters of OPEN_TALK and OPEN_LISTEN. -/
structure OpenParams where
  channel : Fin 8
  tag     : Tag
  base    : Word
  fi      : RingIndex
deriving DecidableEq, Repr

/-- OPEN's parameters: channel 0–7, tag 1–255, base a multiple of 512, FI 0–31 (R87, R107, R124, R177). -/
def openParamsOf (params : Vector Word 4) : Option OpenParams :=
  match paramBelow 8 params[0], paramBelow 256 params[1], paramBelow 32 params[3] with
  | some channel, some tag, some fi =>
    if tag.val != 0 && params[2].toNat % 512 == 0 then
      some { channel, tag := BitVec.ofNat 8 tag.val, base := params[2], fi }
    else none
  | _, _, _ => none

/-- CLAIM's slot parameter for a round of n slots: ANY is none, a slot below n is some (R67, R177). -/
def claimSlotOf (n : Nat) (w : Word) : Option (Option Slot) :=
  if w.toNat = Config.anySlot then some none
  else if w.toNat < n then (paramBelow 32 w).map some
  else none

end Sys2Proof.Machine
end

