-- ==== Sys2Proof/Machine/Ops.lean ====
section
/-! DEFINITION. The named operations every family uses: updates of one block, values other blocks read, and entering
an event record (chapter 10). -/

namespace Sys2Proof.Machine

/-! ## Updates of one block -/

def State.setStc (s : State) (v : Stc) : State := { s with stc := v }
def State.setRtm (s : State) (v : Rtm) : State := { s with rtm := v }
def State.setLif (s : State) (v : Lif) : State := { s with lif := v }
def State.setSmap (s : State) (v : Smap) : State := { s with smap := v }
def State.setCle (s : State) (v : Cle) : State := { s with cle := v }
def State.setTalk (s : State) (k : TalkId) (v : Talk) : State := { s with talk := s.talk.set k v }
def State.setListen (s : State) (k : ListenId) (v : Listen) : State := { s with listen := s.listen.set k v }
def State.setMpt (s : State) (v : Mpt) : State := { s with mpt := v }
def State.setHpt (s : State) (v : Hpt) : State := { s with hpt := v }
def State.setEvq (s : State) (v : Evq) : State := { s with evq := v }
def State.setBoundary (s : State) (v : BoundaryWork) : State := { s with boundary := v }
def State.setRstHeld (s : State) (v : Bool) : State := { s with rstHeld := v }

/-- HPT's flags alone. -/
def State.setFlags (s : State) (f : Flags) : State := s.setHpt { s.hpt with flags := f }

/-- HPT's mailbox alone. -/
def State.setMailbox (s : State) (m : Mailbox) : State := s.setHpt { s.hpt with mailbox := m }

/-! ## What other blocks read -/

/-- The station is in a link state (section 2.1). -/
def State.inLink (s : State) : Bool := s.stc.state.inLink

/-- N, the data slots of the station's shape; no record, no slot (R24). -/
def State.slots (s : State) : Nat :=
  match s.stc.start with
  | some r => r.shape.slots
  | none => 0

/-- The station's own id (R24). -/
def State.selfId (s : State) : StationId :=
  match s.stc.start with
  | some r => r.id
  | none => 0

/-- The round period P in bit times (R3, R24). -/
def State.period (s : State) : Nat :=
  match s.stc.start with
  | some r => Config.bitsPerMicrosecond * r.period
  | none => 0

/-- The claim retry limit (R24). -/
def State.retryLimit (s : State) : Nat :=
  match s.stc.start with
  | some r => r.retryLimit
  | none => 0

/-- The round stamp: the low 16 bits of the round counter (section 1.3). -/
def State.stamp (s : State) : BitVec 16 := s.rtm.counter.setWidth 16

/-- E, counting as 0 while it is stopped (R4). -/
def State.now (s : State) : Nat := s.rtm.elapsed.getD 0

/-- The talk channel bound to a slot, the lowest if there were several (R42). -/
def State.talkAt (s : State) (slot : Slot) : Option TalkId :=
  (List.finRange 8).find? fun k => s.talk[k].bound == some slot

/-- A talk channel in the numbering of event records (R165). -/
def talkChannel (k : TalkId) : ChannelId := ⟨k.val, by omega⟩

/-- A listen channel in the numbering of event records (R165). -/
def listenChannel (k : ListenId) : ChannelId := ⟨k.val + 8, by omega⟩

/-! ## Event records (chapter 10) -/

/-- A record before EVQ has it; the stamp is filled in as it is made (R165). -/
def event (kind : EventKind) (detail : Nat := 0) (channel : Option ChannelId := none) (slot : Option Slot := none)
    (station : Option StationId := none) (tag : Option Tag := none) : EventRecord :=
  { kind, channel, slot, station, tag, detail := BitVec.ofNat 16 detail, stamp := 0 }

/-- Whether a class is recorded under a mask: LINK and QUEUE always (R166). -/
def EventMask.chooses (m : EventMask) : EventClass → Bool
  | .claim => m.claim
  | .slot => m.slot
  | .data => m.data
  | .trouble => m.trouble
  | .none | .link | .queue => true

/-- Whether a record of this kind is recorded now; with no START record every class is (R166). -/
def State.records (s : State) (kind : EventKind) : Bool :=
  match s.stc.start with
  | some r => r.mask.chooses kind.cls
  | none => true

/-- A recorded record is entered at the tail, or dropped and counted while the queue is full (R167, R168). -/
def State.enter (s : State) (r : EventRecord) : State :=
  if s.evq.queue.length < Config.eventPlaces then
    s.setEvq { s.evq with queue := s.evq.queue ++ [r] }
  else
    (s.setEvq { s.evq with dropped := countUp Config.countLimit s.evq.dropped 1 }).setFlags
      { s.hpt.flags with eventOverflow := true }

/-- A block makes a record now: it gets the round stamp and reaches EVQ, which judges it against the mask
(R165, R166). -/
def State.post (s : State) (r : EventRecord) : State :=
  if s.records r.kind then s.enter { r with stamp := s.stamp } else s

/-- Records in the order made (R167). -/
def State.postAll (s : State) (rs : List EventRecord) : State :=
  rs.foldl State.post s

/-- HIRQ: asserted while the queue holds a record, deasserted while RST_N is held (R163). -/
def State.hirq (s : State) : Bool :=
  !s.rstHeld && !s.evq.queue.isEmpty

/-! ## The mailbox -/

/-- An immediate command's result, or the completion of the command that held the mailbox (R151, R154). -/
def State.answer (s : State) (result : ResultCode) (code : BitVec 8) : State :=
  s.setMailbox (.done result code)

/-- The owning engine reports the command in progress complete: DONE, OK, its code (R154). -/
def State.commandComplete (s : State) : State :=
  match s.hpt.mailbox with
  | .busy code => s.answer .ok code
  | .idle | .done _ _ => s

/-! ## What a channel event brings about

A channel event at TKE or LNE changes the channel, makes memory requests and event records, and may ask the Claim
Engine for a RELEASE or complete the command that waits in the mailbox. -/

/-- The outcome of an event at one channel. -/
structure Out (α : Type) where
  chan     : α
  requests : List MemRequest
  records  : List EventRecord
  release  : Bool
  done     : Bool
deriving DecidableEq, Repr

/-- Only the channel changes. -/
def Out.only {α : Type} (a : α) : Out α :=
  { chan := a, requests := [], records := [], release := false, done := false }

/-- One event after another, as one. -/
def Out.andThen {α β : Type} (o : Out α) (f : α → Out β) : Out β :=
  let p := f o.chan
  { chan := p.chan, requests := o.requests ++ p.requests, records := o.records ++ p.records,
    release := o.release || p.release, done := o.done || p.done }

/-- The same outcome with the channel seen another way. -/
def Out.mapChan {α β : Type} (o : Out α) (f : α → β) : Out β :=
  { chan := f o.chan, requests := o.requests, records := o.records, release := o.release, done := o.done }

/-- One more record. -/
def Out.record {α : Type} (o : Out α) (r : EventRecord) : Out α :=
  { o with records := o.records ++ [r] }

/-- A channel's requests join the tail of its waiting list in the order made (R140). -/
def State.enqueue (s : State) (c : ChannelId) (rs : List MemRequest) : State :=
  s.setMpt { s.mpt with waiting := s.mpt.waiting.set c (s.mpt.waiting[c] ++ rs) }

end Sys2Proof.Machine
end

