-- ==== Sys2Proof/Machine/ClaimEngine.lean ====
section
/-! DEFINITION. The Claim Engine (chapter 4). -/

namespace Sys2Proof.Machine

/-! ## The queue (R65, R66) -/

/-- The channel's request (R65). -/
def Cle.requestOf (c : Cle) (k : TalkId) : Option ClaimRequest :=
  c.queue.find? fun r => r.channel == k

/-- The queue holds a request for the channel. -/
def Cle.holds (c : Cle) (k : TalkId) : Bool := (c.requestOf k).isSome

/-- A request as it joins: attempts 0, sent slot absent, WAITING (R66). -/
def ClaimRequest.new (kind : ClaimKind) (channel : TalkId) (slot : Option Slot) (tag : Tag) : ClaimRequest :=
  { kind, channel, slot, tag, attempts := 0, sentSlot := none, phase := .waiting }

/-- A request joins the queue at its tail (R66). -/
def State.joinQueue (s : State) (r : ClaimRequest) : State :=
  s.setCle { s.cle with queue := s.cle.queue ++ [r] }

/-- A RELEASE joins for a bound channel, with its slot and tag (R66, R68, R69, R28, R29). -/
def State.joinRelease (s : State) (k : TalkId) : State :=
  s.joinQueue (.new .release k s.talk[k].bound (s.talk[k].tag.getD 0))

/-- A request leaves the queue with its outcome record (R83). -/
def State.endRequest (s : State) (k : TalkId) (outcome : EventRecord) : State :=
  (s.setCle { s.cle with queue := s.cle.queue.filter fun r => r.channel != k }).post outcome

/-- The channel's request changes in its place. -/
def State.updateRequest (s : State) (k : TalkId) (f : ClaimRequest → ClaimRequest) : State :=
  s.setCle { s.cle with queue := s.cle.queue.map fun r => if r.channel == k then f r else r }

/-- The Talk Engine's request for a RELEASE on completing an END buffer (R69). -/
def State.endRelease (s : State) (k : TalkId) : State :=
  if s.stc.state == .joined && !s.cle.holds k then s.joinRelease k else s

/-! ## Outcome records (R83) -/

/-- An outcome record: channel and tag of the request, slot, station and detail as given (R83). -/
def ClaimRequest.outcome (r : ClaimRequest) (kind : EventKind) (slot : Option Slot) (station : Option StationId)
    (detail : Nat) : EventRecord :=
  event kind detail (channel := some (talkChannel r.channel)) (slot := slot) (station := station) (tag := some r.tag)

/-- WITHDRAWN: the request's slot, or for ANY its sent slot (R83). -/
def ClaimRequest.withdrawn (r : ClaimRequest) (cause : ClaimCause) : EventRecord :=
  r.outcome .withdrawn (r.slot.orElse fun _ => r.sentSlot) none cause.code

/-- The peer an entry names as owner (R74, R83). -/
def Entry.peerOwner : Entry → Option StationId
  | .peer owner .. => some owner
  | .free | .own .. | .quarantine _ => none

/-! ## Choosing the round's message (R70 to R72, R78) -/

/-- The lowest FREE slot of the station's shape (R72). -/
def State.lowestFree (s : State) : Option Slot :=
  (List.finRange 32).find? fun i => decide (i.val < s.slots) && s.smap.entries[i] == .free

/-- What the walk makes of one request: passed over, sent with this slot, or ended with this record. -/
inductive Examination where
  | pass
  | send (slot : Slot)
  | ends (outcome : EventRecord)
deriving DecidableEq, Repr

/-- The walk's view of a request (R71, R72, R78). -/
def State.examine (s : State) (r : ClaimRequest) : Examination :=
  if r.phase == .sentWon then .pass
  else
    match r.kind, r.slot with
    | .release, some slot => .send slot
    | .release, none => .pass
    | .claim, wanted =>
      if s.stc.state == .leaving || s.stc.band == .degraded then .pass
      else
        match wanted with
        | none =>
          match s.lowestFree with
          | some slot => .send slot
          | none => .ends (r.outcome .noSlot none none 0)
        | some slot =>
          if s.smap.entries[slot] == .free then .send slot
          else .ends (r.outcome .refused (some slot) s.smap.entries[slot].peerOwner ClaimCause.ownedSeen.code)

/-- The result of a walk: the queue it leaves, the records it makes, the request it sends. -/
structure Walk where
  queue   : List ClaimRequest
  records : List EventRecord
  sent    : Option ClaimRequest
deriving DecidableEq, Repr

/-- The walk from the oldest request on (R70): it stops at the first that may be sent. -/
def State.walk (s : State) : List ClaimRequest → Walk
  | [] => { queue := [], records := [], sent := none }
  | r :: rest =>
    match s.examine r with
    | .pass => let w := s.walk rest; { w with queue := r :: w.queue }
    | .ends outcome => let w := s.walk rest; { w with records := outcome :: w.records }
    | .send slot =>
      let chosen := { r with sentSlot := some slot }
      { queue := chosen :: rest, records := [], sent := some chosen }

/-- The message of a chosen request (R70). -/
def State.messageFor (s : State) (r : ClaimRequest) : ClaimMessage :=
  { kind := r.kind, slot := r.sentSlot.getD 0, station := s.selfId, tag := r.tag }

/-- The choice as the claim window opens (R70): nothing outside JOINED and LEAVING. -/
def State.chooseMessage (s : State) : State × Option ClaimMessage :=
  if s.stc.state == .joined || s.stc.state == .leaving then
    let w := s.walk s.cle.queue
    ((s.setCle { queue := w.queue, onLine := w.sent.map ClaimRequest.channel, lineEnds := none }).postAll w.records,
      w.sent.map s.messageFor)
  else (s, none)

/-! ## The window result (R73, R79, R28) -/

/-- A lost message: withdrawn if a CLOSE or LEAVE was taken meanwhile, else one more attempt, which may be the last
(R73, R79, R28). -/
def State.lostRequest (s : State) (k : TalkId) (r : ClaimRequest) (ends : Option ClaimCause) : State :=
  match ends with
  | some cause => s.endRequest k (r.withdrawn cause)
  | none =>
    if s.retryLimit ≤ r.attempts + 1 then
      match r.kind with
      | .claim => s.endRequest k (r.outcome .expired r.sentSlot none (r.attempts + 1))
      | .release => s.endRequest k (r.outcome .releaseExpired r.slot none (r.attempts + 1))
    else s.updateRequest k fun r => { r with attempts := r.attempts + 1 }

/-- LIF's window result reaches CLE (R73); without a message on the line it is not used (R82). -/
def State.windowResult (s : State) (part : WindowPart) : State :=
  match s.cle.onLine with
  | none => s
  | some k =>
    let ends := s.cle.lineEnds
    let s := s.setCle { s.cle with onLine := none, lineEnds := none }
    match s.cle.requestOf k, part with
    | some _, .won => s.updateRequest k fun r => { r with phase := .sentWon }
    | some r, .lost => s.lostRequest k r ends
    | some _, .notSent | none, _ => s

/-! ## Withdrawal (R79 to R81) -/

/-- The close notice of a talk channel (R79) (DESIGN CHOICE for the cause, log entry 17). -/
def State.closeNotice (s : State) (k : TalkId) : State :=
  match s.cle.requestOf k with
  | none => s
  | some r =>
    if r.phase == .sentWon then s
    else if s.cle.onLine == some k then
      s.setCle { s.cle with lineEnds := s.cle.lineEnds.orElse fun _ => some .closed }
    else s.endRequest k (r.withdrawn .closed)

/-- LEAVE at one request: a WAITING CLAIM is withdrawn, or waits for its window result if it is on the line; a RELEASE
and a SENT-WON CLAIM stay (R28, R80) (DESIGN CHOICE for the cause, log entry 17). -/
def State.leaveRequest (s : State) (r : ClaimRequest) : State :=
  if r.kind == .claim && r.phase == .waiting then
    if s.cle.onLine == some r.channel then
      s.setCle { s.cle with lineEnds := s.cle.lineEnds.orElse fun _ => some .leave }
    else s.endRequest r.channel (r.withdrawn .leave)
  else s

/-- LEAVE in JOINED at CLE, in queue order (R80). -/
def State.withdrawClaims (s : State) : State :=
  s.cle.queue.foldl State.leaveRequest s

/-- The fault notice at CLE (R81). -/
def State.withdrawAll (s : State) : State :=
  (s.setCle .clear).postAll (s.cle.queue.map fun r => r.withdrawn .fault)

/-! ## Settling at the boundary (R74 to R77) -/

/-- The outcome of a SENT-WON request (R74, R75) (DEDUCED for QUARANTINE, log entry 26). -/
def State.settledOutcome (s : State) (r : ClaimRequest) : EventRecord :=
  match r.kind with
  | .release => r.outcome .released r.slot none r.attempts
  | .claim =>
    match r.sentSlot with
    | none => r.outcome .refused none none ClaimCause.contested.code
    | some slot =>
      match s.smap.entries[slot] with
      | .own .. =>
        if s.talk[r.channel].bound == some slot then r.outcome .granted (some slot) none r.attempts
        else r.outcome .refused (some slot) none ClaimCause.contested.code
      | .quarantine _ => r.withdrawn .closed
      | .peer owner .. => r.outcome .refused (some slot) (some owner) ClaimCause.contested.code
      | .free => r.outcome .refused (some slot) none ClaimCause.contested.code

/-- The settling of one SENT-WON request, if it is one (R74, R75). -/
def State.settleWon (s : State) (r : ClaimRequest) : State :=
  if r.phase == .sentWon then s.endRequest r.channel (s.settledOutcome r) else s

/-- A WAITING RELEASE whose channel is no longer bound to its slot is withdrawn (R76). -/
def State.settleRelease (s : State) (r : ClaimRequest) : State :=
  if r.kind == .release && r.phase == .waiting && s.talk[r.channel].bound != r.slot then
    s.endRequest r.channel (r.withdrawn .slotLost)
  else s

/-- CLE's work on the settled notice: SENT-WON requests first, then the withdrawals, in queue order (R77). -/
def State.claimWork (s : State) : State :=
  if s.boundary.claims then
    let s := s.setBoundary { s.boundary with claims := false }
    let s := s.cle.queue.foldl State.settleWon s
    s.cle.queue.foldl State.settleRelease s
  else s

/-! ## The host's requests (R67, R68) -/

/-- The CLAIM command (R67). -/
def State.claimCommand (s : State) : ResultCode × State :=
  if s.stc.state != .joined then (.badState, s)
  else
    match paramBelow 8 s.hpt.params[0], claimSlotOf s.slots s.hpt.params[1] with
    | some k, some slot =>
      if s.talk[k].state != .armed then (.channelState, s)
      else if Config.claimPlaces ≤ s.cle.queue.length then (.queueFull, s)
      else if s.cle.holds k then (.duplicate, s)
      else (.ok, s.joinQueue (.new .claim k slot (s.talk[k].tag.getD 0)))
    | _, _ => (.badParam, s)

/-- The RELEASE command (R68). -/
def State.releaseCommand (s : State) : ResultCode × State :=
  if s.stc.state != .joined then (.badState, s)
  else
    match paramBelow 8 s.hpt.params[0] with
    | some k =>
      if s.talk[k].bound.isNone then (.channelState, s)
      else if Config.claimPlaces ≤ s.cle.queue.length then (.queueFull, s)
      else if s.cle.holds k then (.duplicate, s)
      else (.ok, s.joinRelease k)
    | none => (.badParam, s)

end Sys2Proof.Machine
end

