-- ==== Sys2Proof/Machine/Rings.lean ====
section
/-! DEFINITION. The descriptor rings of chapter 5: what talk and listen channels share. -/

namespace Sys2Proof.Machine

/-- Which channel an event is at, and the round stamp its writebacks carry (R86). -/
structure ChannelContext where
  channel : ChannelId
  stamp   : BitVec 16
deriving DecidableEq, Repr

/-- Count: the valid descriptors, (FI − CI) mod 32 (R87). -/
def Ring.count (r : Ring) : Nat := (r.fi - r.ci).val

/-- The number of taken descriptors (R88). -/
def Ring.taken (r : Ring) : Nat :=
  r.current.isSome.toNat + r.ahead.isSome.toNat

/-- The copy of a descriptor that is HELD without a failure (R88). -/
def heldOf : Option Taken → Option Descriptor
  | some (.held d) => some d
  | _ => none

/-- The part's copy of a taken descriptor, if a fetch has brought one (R88). -/
def copyOf : Option Taken → Option Descriptor
  | some (.held d) | some (.bad d) | some (.readError d) => some d
  | some .fetching | some .fetchError | none => none

/-- The EVENT flag of a taken descriptor's copy (R99); without a copy there is none. -/
def eventOf (t : Option Taken) : Bool :=
  match copyOf t with
  | some d => d.event
  | none => false

/-- No descriptor taken, position 0 (R102, R104). -/
def Ring.emptied (r : Ring) : Ring :=
  { r with current := none, ahead := none, position := 0 }

/-- CI one further, no descriptor taken (R102, R104). -/
def Ring.passed (r : Ring) : Ring :=
  { r.emptied with ci := r.ci + 1 }

/-- The address of descriptor `index` (section 5.1). -/
def Ring.descriptorAddress (r : Ring) (index : RingIndex) : Word :=
  r.base + BitVec.ofNat 32 (16 * index.val)

/-- A request that is not a writeback: one that a rewind, a halt or a CLOSE makes stale (R109, R132). -/
def RequestEntry.isStalable (e : RequestEntry) : Bool :=
  e.purpose != .writeback

/-- The stale mark on every entry that `p` names. -/
def markStale (p : RequestEntry → Bool) (es : List RequestEntry) : List RequestEntry :=
  es.map fun e => if p e then { e with stale := true } else e

/-- A fetch that is not stale is outstanding (R93). -/
def ChannelCore.liveFetch (c : ChannelCore) : Bool :=
  c.requests.any fun e => e.purpose == .descFetch && !e.stale

/-- A channel makes a request: it joins the engine's list and the Memory Port's (R98, R140). -/
def ChannelCore.request (ctx : ChannelContext) (c : ChannelCore) (entry : RequestEntry) (address : Word)
    (data : List Word) : Out ChannelCore :=
  { Out.only { c with requests := c.requests ++ [entry] } with
    requests := [{ purpose := entry.purpose, address, words := entry.words, requester := ctx.channel, data }] }

/-- The fetch of a descriptor: a 2-word read of words 0 and 1 (R93, R139). -/
def ChannelCore.fetch (ctx : ChannelContext) (c : ChannelCore) (index : RingIndex) : Out ChannelCore :=
  c.request ctx { purpose := .descFetch, stale := false, index, words := 2, ok := false, event := false }
    (c.ring.descriptorAddress index) []

/-- A writeback: a 2-word write of words 2 and 3, whatever the list holds (R86, R98, R99, R139). The sequence is
present only with words transferred above 0. -/
def ChannelCore.writeback (ctx : ChannelContext) (c : ChannelCore) (index : RingIndex) (result : WritebackResult)
    (transferred : Nat) (event : Bool) (sequence : Option (BitVec 4)) : Out ChannelCore :=
  c.request ctx
    { purpose := .writeback, stale := false, index, words := 2, ok := result == .ok, event }
    (c.ring.descriptorAddress index + 8#32)
    [completionWord2 result transferred, completionWord3 ctx.stamp (if transferred = 0 then none else sequence)]

/-- The current is fetched: the ring holds a valid untaken descriptor and no current, or the current's fetch became
stale at a rewind (R93, R116) (DEDUCED, log entry 28). -/
def ChannelCore.wantsCurrent (c : ChannelCore) : Bool :=
  (c.ring.current.isNone && c.ring.taken < c.ring.count) || (c.ring.current == some .fetching && !c.liveFetch)

/-- The current's fetch is made (R93). -/
def ChannelCore.fetchCurrent (ctx : ChannelContext) (c : ChannelCore) : Out ChannelCore :=
  { c with ring := { c.ring with current := some .fetching } }.fetch ctx c.ring.ci

/-- The ahead is fetched: a current HELD without failure, no ahead, a valid untaken descriptor (R93); the words test
is the engine's. -/
def ChannelCore.wantsAhead (c : ChannelCore) : Bool :=
  (heldOf c.ring.current).isSome && c.ring.ahead.isNone && c.ring.taken < c.ring.count

/-- The ahead's fetch is made (R93). -/
def ChannelCore.fetchAhead (ctx : ChannelContext) (c : ChannelCore) : Out ChannelCore :=
  { c with ring := { c.ring with ahead := some .fetching } }.fetch ctx (c.ring.ci + 1)

/-- Completion of the current buffer, steps 1 to 3 of R97; `rest` is the number of words of the next buffer already
done (R89). -/
def ChannelCore.complete (ctx : ChannelContext) (c : ChannelCore) (d : Descriptor) (rest : Nat)
    (sequence : Option (BitVec 4)) : Out ChannelCore :=
  (c.writeback ctx c.ring.ci .ok d.length d.event sequence).mapChan fun c' =>
    { c' with ring := { c'.ring with
        ci := c.ring.ci + 1, current := c.ring.ahead, ahead := none,
        position := if c.ring.ahead.isSome then rest else 0 } }

/-- The halt that a failure pending on a new current brings about at once (R97 step 4). -/
def pendingHalt : Option Taken → Option HaltReason
  | some (.bad _) => some .badDescriptor
  | some .fetchError => some .fetchFailed
  | some (.readError _) => some .dataFailed
  | some .fetching | some (.held _) | none => none

/-- The cause a halt records (R95, R96, R100, R101, R134). -/
def HaltReason.cause : HaltReason → HaltCause
  | .badDescriptor => .badDescriptor
  | .fetchFailed | .dataFailed | .writebackFailed _ => .memory
  | .endBuffer => .endBuffer

/-- The detail of CHANNEL_HALTED: the cause, and for MEMORY the index of the descriptor the failure belonged to
(R102, R177). -/
def HaltReason.detail (reason : HaltReason) (ci : RingIndex) : Nat :=
  match reason with
  | .badDescriptor | .endBuffer => reason.cause.code
  | .fetchFailed | .dataFailed => reason.cause.code + 256 * ci.val
  | .writebackFailed index => reason.cause.code + 256 * index.val

/-- The ring steps on entering HALTED (R102): fetches and data requests become stale, the current's use ends as the
table gives, nothing stays taken. -/
def ChannelCore.halt (ctx : ChannelContext) (c : ChannelCore) (reason : HaltReason)
    (sequence : Option (BitVec 4)) : Out ChannelCore :=
  let c := { c with requests := markStale RequestEntry.isStalable c.requests }
  match reason with
  | .badDescriptor =>
    (c.writeback ctx c.ring.ci .bad 0 (eventOf c.ring.current) none).mapChan fun c' =>
      { c' with ring := c.ring.emptied }
  | .fetchFailed | .endBuffer => Out.only { c with ring := c.ring.emptied }
  | .dataFailed | .writebackFailed _ =>
    match c.ring.current with
    | some (.held _) | some (.readError _) =>
      (c.writeback ctx c.ring.ci .memory c.ring.position (eventOf c.ring.current) sequence).mapChan fun c' =>
        { c' with ring := c.ring.passed }
    | some .fetching | some (.bad _) | some .fetchError | none => Out.only { c with ring := c.ring.emptied }

/-- The end of a ring's use for a CLOSE (R104): a HELD current with words done is written back PARTIAL and passed,
everything else taken is dropped. -/
def ChannelCore.close (ctx : ChannelContext) (c : ChannelCore) (sequence : Option (BitVec 4)) : Out ChannelCore :=
  let c := { c with requests := markStale RequestEntry.isStalable c.requests }
  if (heldOf c.ring.current).isSome && 0 < c.ring.position then
    (c.writeback ctx c.ring.ci .partialUse c.ring.position (eventOf c.ring.current) sequence).mapChan fun c' =>
      { c' with ring := c.ring.passed }
  else Out.only { c with ring := c.ring.emptied }

/-- Causes of FILL_REJECTED (R90, R177). -/
inductive FillRejection where
  | retract | closed
deriving DecidableEq, Repr

/-- FILL_REJECTED's detail (R177). -/
def FillRejection.code : FillRejection → Nat
  | .retract => 1
  | .closed => 2

/-- The judgement of a Fill index write (R90): nothing if it is taken. -/
def Ring.fillVerdict (r : Ring) (isOpen : Bool) (fi : RingIndex) : Option FillRejection :=
  if !isOpen then some .closed
  else if { r with fi }.count < r.taken then some .retract
  else none

/-- The ring state an OPEN sets (R87). -/
def Ring.opened (base : Word) (fi : RingIndex) : Ring :=
  { base, ci := 0, fi, current := none, ahead := none, position := 0 }

end Sys2Proof.Machine
end

