-- ==== Sys2Proof/Machine/ListenEngine.lean ====
section
/-! DEFINITION. One listen channel (chapter 7): every event that reaches it, as a function of its context alone. -/

namespace Sys2Proof.Machine

/-- A shared ring step at a listen channel. -/
def Listen.withCore (l : Listen) (o : Out ChannelCore) : Out Listen :=
  o.mapChan fun c => { l with toChannelCore := c }

/-! ## States (R123) -/

/-- The state R123 gives a channel from its binding and count. -/
def Listen.judged (l : Listen) : ListenState :=
  match l.state with
  | .closed => .closed
  | .halted => .halted
  | .waiting | .receiving | .starved =>
    match l.bound with
    | none => .waiting
    | some _ => if 0 < l.ring.count then .receiving else .starved

/-- The state is brought in line with R123; each entry into STARVED posts CHANNEL_STARVED (R125, R133). -/
def Listen.rejudge (ctx : ChannelContext) (l : Listen) : Out Listen :=
  let o := Out.only { l with state := l.judged }
  if l.judged == .starved && l.state != .starved then
    o.record (event .channelStarved 0 (channel := some ctx.channel) (slot := l.bound))
  else o

/-! ## Fetching and writing (R93, R131) -/

/-- The channel walks its ring (R93). -/
def Listen.walks (l : Listen) : Bool :=
  l.state == .waiting || l.state == .receiving || l.state == .starved

/-- Room in the deposit (R129). -/
def Listen.room (l : Listen) : Nat :=
  Config.bufferWords - l.inWrite.length - l.waiting.length

/-- The buffer word the write point names: of the current, or of an ahead HELD without a failure (R131). -/
def Listen.writeTarget (l : Listen) : Option (Descriptor × RingIndex × Nat) :=
  match l.writePoint with
  | none => none
  | some (index, offset) =>
    let d := if index = l.ring.ci then heldOf l.ring.current
      else if index = l.ring.ci + 1 then heldOf l.ring.ahead else none
    match d with
    | some d => if offset < d.length then some (d, index, offset) else none
    | none => none

/-- Words of the current's length not yet covered by done words or by words in the deposit that the current will
take (R131). -/
def Listen.unfilled (l : Listen) : Nat :=
  match heldOf l.ring.current with
  | some d => d.length - l.ring.position - l.inWrite.length - l.waiting.length
  | none => 0

/-- Where the write point goes after a write that ends at `offset` (R131): it does not pass the last word of an END
buffer, and it passes into the next buffer only if that one is HELD without a failure (DEDUCED, log entry 21). -/
def Listen.nextWritePoint (l : Listen) (d : Descriptor) (index : RingIndex) (offset : Nat) :
    Option (RingIndex × Nat) :=
  if offset < d.length || d.final then some (index, offset)
  else if index = l.ring.ci && (heldOf l.ring.ahead).isSome then some (index + 1, 0)
  else none

/-- A data write of the `n` oldest waiting words (R131). -/
def Listen.write (ctx : ChannelContext) (l : Listen) (d : Descriptor) (index : RingIndex) (offset n : Nat) :
    Out Listen :=
  { l with
    inWrite := l.inWrite ++ l.waiting.take n
    waiting := l.waiting.drop n
    writePoint := l.nextWritePoint d index (offset + n) }.withCore
    (l.toChannelCore.request ctx
      { purpose := .dataWrite, stale := false, index, words := n, ok := false, event := false }
      (d.address + BitVec.ofNat 32 (4 * offset)) ((l.waiting.take n).map DepositWord.word))

/-- The ahead's fetch, if R93 calls for it. -/
def Listen.nextAhead (ctx : ChannelContext) (l : Listen) : Option (Out Listen) :=
  if l.wantsAhead && l.unfilled ≤ Config.bufferWords then
    some (l.withCore (l.toChannelCore.fetchAhead ctx))
  else none

/-- The next fetch or data write the rules call for (R93, R98, R131) (DESIGN CHOICE for the order, log entry 11). -/
def Listen.nextRequest (ctx : ChannelContext) (l : Listen) : Option (Out Listen) :=
  if !l.walks || Config.requestLimit ≤ l.requests.length then none
  else if l.wantsCurrent then some (l.withCore (l.toChannelCore.fetchCurrent ctx))
  else
    match l.writeTarget with
    | some (d, index, offset) =>
      let n := min Config.burstWords (min l.waiting.length (d.length - offset))
      if 0 < n then some (l.write ctx d index offset n) else l.nextAhead ctx
    | none => l.nextAhead ctx

/-- At most `fuel` requests, each made as soon as the rules allow (R131). -/
def Listen.pumpFor (ctx : ChannelContext) : Nat → Listen → Out Listen
  | 0, l => Out.only l
  | fuel + 1, l =>
    match l.nextRequest ctx with
    | some o => o.andThen (Listen.pumpFor ctx fuel)
    | none => Out.only l

/-- Every request the rules call for now; the list limit of R98 bounds them. -/
def Listen.pump (ctx : ChannelContext) (l : Listen) : Out Listen :=
  Listen.pumpFor ctx Config.requestLimit l

/-! ## Episodes and halts (R130, R134, R135) -/

/-- An open drop episode ends and is reported (R130). -/
def Listen.endEpisode (ctx : ChannelContext) (l : Listen) : Out Listen :=
  match l.episode with
  | none => Out.only l
  | some e =>
    (Out.only { l with episode := none }).record
      (event .dropEpisode e.words (channel := some ctx.channel) (slot := some e.slot) (tag := l.tag))

/-- Entering HALTED (R102, R134, R135); the binding is kept. -/
def Listen.enterHalted (ctx : ChannelContext) (reason : HaltReason) (l : Listen) : Out Listen :=
  (({ l with
      state := .halted, inWrite := [], waiting := [], writePoint := none, expected := none, lastSequence := none,
      haltCause := some reason.cause }.withCore
      (l.toChannelCore.halt ctx reason l.lastSequence)).andThen (Listen.endEpisode ctx)).record
    (event .channelHalted (reason.detail l.ring.ci) (channel := some ctx.channel))

/-! ## Words done and completion (R89, R97, R132, R134) -/

/-- Completion of the current buffer (R97); an END buffer halts the channel in the same event (R134), and so does a
failure pending on the new current. Where both hold, the END halt drops the ahead with its failure (R102, R134) before
step 4 of R97 could take it (DESIGN CHOICE, log entry 32). -/
def Listen.complete (ctx : ChannelContext) (d : Descriptor) (l : Listen) : Out Listen :=
  let o := { l with lastSequence := none }.withCore (l.toChannelCore.complete ctx d 0 l.lastSequence)
  if d.final then o.andThen (Listen.enterHalted ctx .endBuffer)
  else
    match pendingHalt o.chan.ring.current with
    | some reason => o.andThen (Listen.enterHalted ctx reason)
    | none => o

/-- A data write is answered OK: its words are done (R132). -/
def Listen.written (ctx : ChannelContext) (n : Nat) (l : Listen) : Out Listen :=
  let l := { l with
    lastSequence := ((l.inWrite.take n).getLast?.map DepositWord.sequence).orElse fun _ => l.lastSequence
    inWrite := l.inWrite.drop n
    ring := { l.ring with position := l.ring.position + n } }
  match heldOf l.ring.current with
  | some d => if d.length ≤ l.ring.position then l.complete ctx d else Out.only l
  | none => Out.only l

/-! ## Closing (R137, R138) -/

/-- A data write that is not stale is outstanding (R138). -/
def Listen.writing (l : Listen) : Bool :=
  l.requests.any fun e => e.purpose == .dataWrite && !e.stale

/-- A CLOSE completes (R138). -/
def Listen.closeComplete (ctx : ChannelContext) (l : Listen) : Out Listen :=
  { { l with
      state := .closed, tag := none, bound := none, expected := none, lastSequence := none, inWrite := [],
      waiting := [], writePoint := none, duplicate := false, close := .none, haltCause := none }.withCore
      (l.toChannelCore.close ctx l.lastSequence) with done := true }

/-- A CLOSE that has been applied completes once no data write is outstanding (R138) (DESIGN CHOICE for the order, log
entry 16). -/
def Listen.closeIfDone (ctx : ChannelContext) (l : Listen) : Out Listen :=
  if l.close == .applied && !l.writing then l.closeComplete ctx else Out.only l

/-- A CLOSE is applied (R137), and completes at once if no data write is outstanding (R138). -/
def Listen.applyClose (ctx : ChannelContext) (l : Listen) : Out Listen :=
  (Listen.endEpisode ctx
    { l with
      close := .applied, bound := none, expected := none, duplicate := false, waiting := [],
      state := if l.state == .halted then .halted else .waiting }).andThen (Listen.closeIfDone ctx)

/-! ## Memory responses (R94 to R96, R99 to R101, R132) -/

/-- A fetch is answered OK (R94, R95, R131). -/
def Listen.fetched (ctx : ChannelContext) (index : RingIndex) (d : Descriptor) (l : Listen) : Out Listen :=
  if index = l.ring.ci then
    if d.valid then
      Out.only { l with ring := { l.ring with current := some (.held d) }, writePoint := some (l.ring.ci, 0) }
    else Listen.enterHalted ctx .badDescriptor { l with ring := { l.ring with current := some (.bad d) } }
  else if d.valid then
    Out.only { l with
      ring := { l.ring with ahead := some (.held d) }
      writePoint := if l.writePoint.isSome then l.writePoint else some (index, 0) }
  else Out.only { l with ring := { l.ring with ahead := some (.bad d) } }

/-- A fetch is answered ERROR (R96). -/
def Listen.fetchFailed (ctx : ChannelContext) (index : RingIndex) (l : Listen) : Out Listen :=
  if index = l.ring.ci then
    Listen.enterHalted ctx .fetchFailed { l with ring := { l.ring with current := some .fetchError } }
  else Out.only { l with ring := { l.ring with ahead := some .fetchError } }

/-- A writeback is answered ERROR (R100). -/
def Listen.writebackFailed (ctx : ChannelContext) (index : RingIndex) (l : Listen) : Out Listen :=
  let o := (Out.only l).record (event .writebackFailed index.val (channel := some ctx.channel))
  if l.state == .halted || l.state == .closed then o
  else o.andThen (Listen.enterHalted ctx (.writebackFailed index))

/-- A response that is not stale, by its purpose (R132); `words` is absent for ERROR. -/
def Listen.judgeResponse (ctx : ChannelContext) (e : RequestEntry) (words : Option (List Word)) (l : Listen) :
    Out Listen :=
  match e.purpose, words with
  | .descFetch, some ws => l.fetched ctx e.index (descriptorOf (ws.getD 0 0) (ws.getD 1 0))
  | .descFetch, none => l.fetchFailed ctx e.index
  | .dataWrite, some _ => l.written ctx e.words
  | .dataWrite, none => l.enterHalted ctx .dataFailed
  | .writeback, some _ =>
    if e.ok && e.event then
      (Out.only l).record (event .bufferDone e.index.val (channel := some ctx.channel))
    else Out.only l
  | .writeback, none => l.writebackFailed ctx e.index
  | .dataRead, _ => Out.only l

/-- A response reaches the channel: it belongs to the oldest entry of the list, which leaves it (R132). -/
def Listen.response (ctx : ChannelContext) (words : Option (List Word)) (l : Listen) : Out Listen :=
  match l.requests with
  | [] => Out.only l
  | e :: rest =>
    let l := { l with requests := rest }
    (((if e.stale then Out.only l else l.judgeResponse ctx e words).andThen (Listen.rejudge ctx)).andThen
      (Listen.closeIfDone ctx)).andThen (Listen.pump ctx)

/-! ## Bursts (R127 to R130) -/

/-- SEQUENCE_GAP, where the expected sequence is present and differs (R128). -/
def Listen.gap (ctx : ChannelContext) (slot : Slot) (b : Burst) (l : Listen) : List EventRecord :=
  match l.expected with
  | none => []
  | some q =>
    if b.sequence = q then []
    else [event .sequenceGap (b.sequence - q).toNat (channel := some ctx.channel) (slot := some slot)
      (station := some b.owner) (tag := some b.tag)]

/-- The words of a burst join the deposit and are written as the rules allow; an open episode ends (R129, R130). -/
def Listen.accept (ctx : ChannelContext) (b : Burst) (l : Listen) : Out Listen :=
  ((Listen.endEpisode ctx l).mapChan fun l => { l with
    waiting := l.waiting ++ b.words.map fun w => { word := w, sequence := b.sequence }
    wordsReceived := l.wordsReceived + BitVec.ofNat 32 b.words.length }).andThen (Listen.pump ctx)

/-- A burst is dropped whole: only the episode changes (R129, R130). -/
def Listen.drop (slot : Slot) (b : Burst) (l : Listen) : Listen :=
  let words := countUp Config.countLimit ((l.episode.map Episode.words).getD 0) b.words.length
  { l with episode := some { words, slot } }

/-- A valid burst reaches LNE (R127): a channel bound to its slot with its tag checks the sequence (R128) and keeps
or drops the words of a DATA burst (R129). -/
def Listen.take (ctx : ChannelContext) (slot : Slot) (b : Burst) (l : Listen) : Out Listen :=
  if l.bound = some slot ∧ l.tag = some b.tag ∧ (l.state = .receiving ∨ l.state = .starved) then
    let checked : Out Listen :=
      { Out.only { l with expected := some (b.sequence + 1) } with records := l.gap ctx slot b }
    checked.andThen fun l =>
      if b.kind == .fill || b.words.isEmpty then Out.only l
      else if l.state == .receiving && b.words.length ≤ l.room then l.accept ctx b
      else Out.only (l.drop slot b)
  else Out.only l

/-! ## Resolution and boundary work (R125, R126, R135) -/

/-- The binding as resolution leaves it, with its records (R125). `found` is the found slot with its owner. STREAM_BOUND
comes before CHANNEL_STARVED and STREAM_GONE before DROP_EPISODE (DESIGN CHOICE for the order, log entry 10). -/
def Listen.rebind (ctx : ChannelContext) (found : Option (Slot × StationId)) (l : Listen) : Out Listen :=
  match found with
  | some (slot, owner) =>
    if l.bound = some slot then Out.only l
    else
      ((Out.only { l with bound := some slot, expected := none }).record
        (event .streamBound 0 (channel := some ctx.channel) (slot := some slot) (station := some owner)
          (tag := l.tag))).andThen (Listen.rejudge ctx)
  | none =>
    match l.bound with
    | none => Out.only l
    | some slot =>
      let o := (Out.only { l with bound := none, expected := none }).record
        (event .streamGone 0 (channel := some ctx.channel) (slot := some slot) (tag := l.tag))
      if l.state == .halted then o
      else (o.mapChan fun l => { l with state := .waiting }).andThen (Listen.endEpisode ctx)

/-- DUPLICATE_TAG once for each duplication (R126). -/
def Listen.judgeDuplicate (ctx : ChannelContext) (found : Option Slot) (tagCount : Nat) (l : Listen) : Out Listen :=
  if 2 ≤ tagCount then
    if l.duplicate then Out.only l
    else (Out.only { l with duplicate := true }).record
      (event .duplicateTag tagCount (channel := some ctx.channel) (slot := found) (tag := l.tag))
  else Out.only { l with duplicate := false }

/-- Resolution of one open channel whose close is none (R125 step 3); DUPLICATE_TAG comes last (DESIGN CHOICE for the
order, log entry 10). -/
def Listen.resolve (ctx : ChannelContext) (found : Option (Slot × StationId)) (tagCount : Nat) (l : Listen) :
    Out Listen :=
  if l.state == .closed || l.close != .none then Out.only l
  else (l.rebind ctx found).andThen (Listen.judgeDuplicate ctx (found.map Prod.fst) tagCount)

/-- RESUME applies (R103, R135): the binding goes and the ring walk goes on. -/
def Listen.resumed (ctx : ChannelContext) (l : Listen) : Out Listen :=
  let o := if l.state == .halted then
      Listen.pump ctx { l with state := .waiting, haltCause := none, bound := none, resumeWaits := false }
    else Out.only { l with resumeWaits := false }
  { o with done := true }

/-- A RESUME or a CLOSE that waits proceeds (R125 steps 1 and 2, R136, R155). -/
def Listen.applyWaiting (ctx : ChannelContext) (l : Listen) : Out Listen :=
  (if l.resumeWaits then l.resumed ctx else Out.only l).andThen fun l =>
    if l.close == .taken then l.applyClose ctx else Out.only l

/-- The fault notice and the end of a leave at one channel (R136). -/
def Listen.leaveLink (ctx : ChannelContext) (l : Listen) : Out Listen :=
  let l := { l with bound := none, expected := none, duplicate := false }
  let o := if l.state == .receiving || l.state == .starved then
      Listen.endEpisode ctx { l with state := .waiting }
    else Out.only l
  o.andThen (Listen.applyWaiting ctx)

/-! ## Host events (R90, R124) -/

/-- OPEN_LISTEN (R124): the request list keeps its entries. -/
def Listen.opened (ctx : ChannelContext) (p : OpenParams) (l : Listen) : Out Listen :=
  Listen.pump ctx
    { Listen.clear with
      requests := l.requests, ring := Ring.opened p.base p.fi, state := .waiting, tag := some p.tag }

/-- A Fill index write (R90, R92, R133). -/
def Listen.fill (ctx : ChannelContext) (fi : RingIndex) (l : Listen) : Out Listen :=
  match l.ring.fillVerdict (l.state != .closed) fi with
  | some cause => (Out.only l).record (event .fillRejected cause.code (channel := some ctx.channel))
  | none => (Listen.rejudge ctx { l with ring := { l.ring with fi } }).andThen (Listen.pump ctx)

end Sys2Proof.Machine
end

