-- ==== Sys2Proof/Machine/TalkEngine.lean ====
section
/-! DEFINITION. One talk channel (chapter 6): every event that reaches it, as a function of its context alone. -/

namespace Sys2Proof.Machine

/-- A shared ring step at a talk channel. -/
def Talk.withCore (t : Talk) (o : Out ChannelCore) : Out Talk :=
  o.mapChan fun c => { t with toChannelCore := c }

/-! ## States (R106) -/

/-- The state R106 gives a channel from its binding, count, staging and end wait. -/
def Talk.judged (t : Talk) : TalkState :=
  match t.state with
  | .closed => .closed
  | .halted => .halted
  | .armed | .running | .starved =>
    match t.bound with
    | none => .armed
    | some _ => if 0 < t.ring.count || !t.staging.isEmpty || t.endWait then .running else .starved

/-- The state is brought in line with R106; each entry into STARVED posts CHANNEL_STARVED (R113). -/
def Talk.rejudge (ctx : ChannelContext) (t : Talk) : Out Talk :=
  let o := Out.only { t with state := t.judged }
  if t.judged == .starved && t.state != .starved then
    o.record (event .channelStarved 0 (channel := some ctx.channel) (slot := t.bound))
  else o

/-! ## Fetching and staging (R93, R108) -/

/-- The channel walks its ring (R93, R108); a halt that is only held does not stop it (R118). -/
def Talk.walks (t : Talk) : Bool :=
  t.state == .armed || t.state == .running || t.state == .starved

/-- Words of data reads whose responses have not arrived and that are not stale (R108). -/
def Talk.reading (t : Talk) : Nat :=
  ((t.requests.filter fun e => e.purpose == .dataRead && !e.stale).map RequestEntry.words).sum

/-- Room in staging (R108). -/
def Talk.room (t : Talk) : Nat :=
  Config.bufferWords - t.staging.length - t.reading

/-- The word the read point names: of the current, or of an ahead HELD without a failure (R108). -/
def Talk.readTarget (t : Talk) : Option (Descriptor × RingIndex × Nat) :=
  match t.readPoint with
  | none => none
  | some (index, offset) =>
    let d := if index = t.ring.ci then heldOf t.ring.current
      else if index = t.ring.ci + 1 then heldOf t.ring.ahead else none
    match d with
    | some d => if offset < d.length then some (d, index, offset) else none
    | none => none

/-- Words of the current for which no read has been made (R93). -/
def Talk.unread (t : Talk) : Nat :=
  match heldOf t.ring.current, t.readPoint with
  | some d, some (index, offset) => if index = t.ring.ci then d.length - offset else 0
  | _, _ => 0

/-- A data read of the current has failed and its halt is held: the current is no longer HELD without a failure, and every
read made since is stale (R93, R101, R109, R118). -/
def Talk.readsStale (t : Talk) : Bool := t.heldHalts.contains .dataFailed

/-- A data read of `n` words from the read point, which moves past them (R108). -/
def Talk.read (ctx : ChannelContext) (t : Talk) (d : Descriptor) (index : RingIndex) (offset n : Nat) : Out Talk :=
  { t with readPoint := some (if offset + n = d.length then (index + 1, 0) else (index, offset + n)) }.withCore
    (t.toChannelCore.request ctx
      { purpose := .dataRead, stale := t.readsStale, index, words := n, ok := false, event := false }
      (d.address + BitVec.ofNat 32 (4 * offset)) [])

/-- The ahead's fetch, if R93 calls for it: of a current with a failed read it does not (R93, R101). -/
def Talk.nextAhead (ctx : ChannelContext) (t : Talk) : Option (Out Talk) :=
  if t.wantsAhead && !t.readsStale && t.unread ≤ Config.bufferWords then
    some (t.withCore (t.toChannelCore.fetchAhead ctx))
  else none

/-- The next fetch or data read the rules call for (R93, R98, R108) (DESIGN CHOICE for the order, log entry 11). -/
def Talk.nextRequest (ctx : ChannelContext) (t : Talk) : Option (Out Talk) :=
  if !t.walks || Config.requestLimit ≤ t.requests.length then none
  else if t.wantsCurrent then some (t.withCore (t.toChannelCore.fetchCurrent ctx))
  else
    match t.readTarget with
    | some (d, index, offset) =>
      let n := min Config.burstWords (d.length - offset)
      if n ≤ t.room then some (t.read ctx d index offset n) else t.nextAhead ctx
    | none => t.nextAhead ctx

/-- At most `fuel` requests, each made as soon as the rules allow (R108). -/
def Talk.pumpFor (ctx : ChannelContext) : Nat → Talk → Out Talk
  | 0, t => Out.only t
  | fuel + 1, t =>
    match t.nextRequest ctx with
    | some o => o.andThen (Talk.pumpFor ctx fuel)
    | none => Out.only t

/-- Every request the rules call for now; the list limit of R98 bounds them. -/
def Talk.pump (ctx : ChannelContext) (t : Talk) : Out Talk :=
  Talk.pumpFor ctx Config.requestLimit t

/-! ## Halts (R102, R118) -/

/-- Entering HALTED (R102, R118). -/
def Talk.enterHalted (ctx : ChannelContext) (reason : HaltReason) (t : Talk) : Out Talk :=
  ({ t with state := .halted, staging := [], readPoint := none, onLine := none, haltCause := some reason.cause,
            heldHalts := [] }.withCore
    (t.toChannelCore.halt ctx reason none)).record
      (event .channelHalted (reason.detail t.ring.ci) (channel := some ctx.channel))

/-- A halt reaches the channel; while a burst is on the line it is held (R118). -/
def Talk.halt (ctx : ChannelContext) (reason : HaltReason) (t : Talk) : Out Talk :=
  if t.onLine.isSome then Out.only { t with heldHalts := t.heldHalts ++ [reason] }
  else t.enterHalted ctx reason

/-- A held halt takes its steps once the burst's report has been taken (R118); the first of several halts the channel,
and the others find it HALTED (DEDUCED, log entry 15). -/
def Talk.takeHeldHalt (ctx : ChannelContext) (t : Talk) : Out Talk :=
  match t.heldHalts with
  | [] => Out.only t
  | reason :: _ =>
    if t.state == .halted then Out.only { t with heldHalts := [] } else t.enterHalted ctx reason

/-! ## Words done and completion (R89, R97, R112, R114) -/

/-- Completion of the current buffer (R97); an END buffer sets end wait and asks for a RELEASE unless close is
taken (R114). -/
def Talk.complete (ctx : ChannelContext) (d : Descriptor) (rest : Nat) (t : Talk) : Out Talk :=
  let moved := { t with
    endWait := t.endWait || d.final
    readPoint := if t.readPoint.map Prod.fst == some t.ring.ci then some (t.ring.ci + 1, 0) else t.readPoint }
  let o := { moved.withCore (t.toChannelCore.complete ctx d rest none) with release := d.final && !t.closeTaken }
  match pendingHalt o.chan.ring.current with
  | some reason => o.andThen (Talk.halt ctx reason)
  | none => o

/-- Completions that the position has reached; one report may complete several short buffers (R89). The writebacks of all
of them come before the fetch that any of them allows (R97 step 5) (DESIGN CHOICE for the order, log entry 11). -/
def Talk.completions (ctx : ChannelContext) : Nat → Talk → Out Talk
  | 0, t => Out.only t
  | fuel + 1, t =>
    match heldOf t.ring.current with
    | some d =>
      if d.length ≤ t.ring.position then
        (t.complete ctx d (t.ring.position - d.length)).andThen (Talk.completions ctx fuel)
      else Out.only t
    | none => Out.only t

/-- The words of the burst on the line leave staging and are counted done (R112). -/
def Talk.countSent (t : Talk) (words : List StagedWord) : Talk :=
  { t with
    staging := t.staging.drop words.length
    wordsSent := t.wordsSent + BitVec.ofNat 32 words.length
    onLine := none
    ring := { t.ring with position := t.ring.position + words.length } }

/-- LIF's sent report (R112): words done, completions, the state, and what may then be requested (R97 step 5, R108); a held
halt takes its steps on what that leaves (R118). -/
def Talk.sent (ctx : ChannelContext) (t : Talk) : Out Talk :=
  match t.onLine with
  | none => Out.only t
  | some words =>
    (((Talk.completions ctx 3 (t.countSent words)).andThen (Talk.rejudge ctx)).andThen (Talk.pump ctx)).andThen
      (Talk.takeHeldHalt ctx)

/-- LIF's cut-off report (R112): the words stay unsent. -/
def Talk.cutOff (ctx : ChannelContext) (t : Talk) : Out Talk :=
  match t.onLine with
  | none => Out.only t
  | some _ => Talk.takeHeldHalt ctx { t with onLine := none }

/-! ## Binding and unbinding (R110, R115, R116) -/

/-- The channel takes a binding it is offered (R110): no CLOSE taken, and, as R110 has it whenever a binding is offered,
ARMED or HALTED and not bound (no run has it otherwise: log entry 29). -/
def Talk.takesBinding (t : Talk) : Bool :=
  !t.closeTaken && t.bound.isNone && (t.state == .armed || t.state == .halted)

/-- The channel binds to a slot with sequence 0 (R110). -/
def Talk.bind (ctx : ChannelContext) (slot : Slot) (t : Talk) : Out Talk :=
  Talk.rejudge ctx { t with bound := some slot, sequence := some 0 }

/-- The slot goes without a rewind, by RELEASE or for a CLOSE: staging, ring and requests are kept (R115). -/
def Talk.unbind (t : Talk) : Talk :=
  { t with bound := none, sequence := none, endWait := false,
           state := if t.state == .running || t.state == .starved then .armed else t.state }

/-- The rewind of R116, steps 1 to 7. -/
def Talk.rewound (t : Talk) : Talk :=
  { t with
    staging := []
    onLine := none
    requests := markStale RequestEntry.isStalable t.requests
    ring := { t.ring with ahead := none }
    readPoint := t.ring.current.map fun _ => (t.ring.ci, t.ring.position)
    bound := none
    sequence := none
    endWait := false
    heldHalts := []
    state := .armed }

/-- The slot is lost (R117): a RUNNING or STARVED channel is rewound and stages again, a HALTED one only unbound. -/
def Talk.loseSlot (ctx : ChannelContext) (t : Talk) : Out Talk :=
  if t.state == .running || t.state == .starved then t.rewound.pump ctx
  else Out.only t.unbind

/-! ## Bursts (R111) -/

/-- Where END cuts a burst: the words left of a current that carries END, or with those of an ahead that does
(R111). -/
def Talk.endLimit (t : Talk) : Option Nat :=
  match heldOf t.ring.current with
  | none => none
  | some d =>
    let left := d.length - t.ring.position
    if d.final then some left
    else match heldOf t.ring.ahead with
      | some a => if a.final then some (left + a.length) else none
      | none => none

/-- The words a DATA burst takes from the front of staging (R111). -/
def Talk.burstWords (t : Talk) : List StagedWord :=
  let most := match t.endLimit with
    | some n => min Config.burstWords n
    | none => Config.burstWords
  t.staging.take most

/-- The channel sends DATA: RUNNING, words staged, no end wait (R111). -/
def Talk.sendsData (t : Talk) : Bool :=
  !t.endWait && t.state == .running && !t.staging.isEmpty

/-- The burst the channel assembles as its slot opens (R111). -/
def Talk.burst (self : StationId) (t : Talk) : Burst :=
  { owner := self
    tag := t.tag.getD 0
    kind := if t.sendsData then .data else .fill
    sequence := t.sequence.getD 0
    words := if t.sendsData then t.burstWords.map StagedWord.word else [] }

/-- The channel after it hands LIF the burst: the sequence advances, the words are on the line, and a FILL sent while
RUNNING with staging empty is late (R111, R114). -/
def Talk.afterBurst (t : Talk) : Talk :=
  { t with
    sequence := t.sequence.map (· + 1)
    onLine := some (if t.sendsData then t.burstWords else [])
    lateCount :=
      if t.state == .running && t.staging.isEmpty && !t.endWait then countUp Config.countLimit t.lateCount 1
      else t.lateCount }

/-! ## Memory responses (R94 to R96, R99 to R101, R109) -/

/-- A fetch is answered OK (R94, R95, R108). -/
def Talk.fetched (ctx : ChannelContext) (index : RingIndex) (d : Descriptor) (t : Talk) : Out Talk :=
  if index = t.ring.ci then
    if d.valid then
      Out.only { t with ring := { t.ring with current := some (.held d) }, readPoint := some (t.ring.ci, 0) }
    else Talk.halt ctx .badDescriptor { t with ring := { t.ring with current := some (.bad d) } }
  else if d.valid then
    Out.only { t with
      ring := { t.ring with ahead := some (.held d) }
      readPoint := if t.readPoint.map Prod.fst == some t.ring.ci then t.readPoint else some (index, 0) }
  else Out.only { t with ring := { t.ring with ahead := some (.bad d) } }

/-- A fetch is answered ERROR (R96). -/
def Talk.fetchFailed (ctx : ChannelContext) (index : RingIndex) (t : Talk) : Out Talk :=
  if index = t.ring.ci then
    Talk.halt ctx .fetchFailed { t with ring := { t.ring with current := some .fetchError } }
  else Out.only { t with ring := { t.ring with ahead := some .fetchError } }

/-- A data read is answered ERROR (R101): later reads are stale, and the failure belongs to its buffer. -/
def Talk.readFailed (ctx : ChannelContext) (index : RingIndex) (t : Talk) : Out Talk :=
  let t := { t with requests := markStale (fun e => e.purpose == .dataRead) t.requests }
  if index = t.ring.ci then Talk.halt ctx .dataFailed t
  else
    match heldOf t.ring.ahead with
    | some d => Out.only { t with ring := { t.ring with ahead := some (.readError d) } }
    | none => Out.only t

/-- A writeback is answered ERROR (R100). -/
def Talk.writebackFailed (ctx : ChannelContext) (index : RingIndex) (t : Talk) : Out Talk :=
  let o := (Out.only t).record (event .writebackFailed index.val (channel := some ctx.channel))
  if t.state == .halted || t.state == .closed then o else o.andThen (Talk.halt ctx (.writebackFailed index))

/-- A response that is not stale, by its purpose (R109); `words` is absent for ERROR, and a read's are as many as its
entry asked for (log entry 19). -/
def Talk.judgeResponse (ctx : ChannelContext) (e : RequestEntry) (words : Option (List Word)) (t : Talk) :
    Out Talk :=
  match e.purpose, words with
  | .descFetch, some ws => t.fetched ctx e.index (descriptorOf (ws.getD 0 0) (ws.getD 1 0))
  | .descFetch, none => t.fetchFailed ctx e.index
  | .dataRead, some ws =>
    Out.only { t with staging := t.staging ++ (ws.take e.words).map fun w => { index := e.index, word := w } }
  | .dataRead, none => t.readFailed ctx e.index
  | .writeback, some _ =>
    if e.ok && e.event then
      (Out.only t).record (event .bufferDone e.index.val (channel := some ctx.channel))
    else Out.only t
  | .writeback, none => t.writebackFailed ctx e.index
  | .dataWrite, _ => Out.only t

/-- A response reaches the channel: it belongs to the oldest entry of the list, which leaves it (R109). -/
def Talk.response (ctx : ChannelContext) (words : Option (List Word)) (t : Talk) : Out Talk :=
  match t.requests with
  | [] => Out.only t
  | e :: rest =>
    let t := { t with requests := rest }
    ((if e.stale then Out.only t else t.judgeResponse ctx e words).andThen (Talk.rejudge ctx)).andThen
      (Talk.pump ctx)

/-! ## Host events (R90, R103, R107, R118, R120) -/

/-- OPEN_TALK (R107): the request list is left as it is. -/
def Talk.opened (ctx : ChannelContext) (p : OpenParams) (t : Talk) : Out Talk :=
  Talk.pump ctx
    { Talk.clear with
      requests := t.requests, ring := Ring.opened p.base p.fi, state := .armed, tag := some p.tag }

/-- A Fill index write (R90, R92, R113). -/
def Talk.fill (ctx : ChannelContext) (fi : RingIndex) (t : Talk) : Out Talk :=
  match t.ring.fillVerdict (t.state != .closed) fi with
  | some cause => (Out.only t).record (event .fillRejected cause.code (channel := some ctx.channel))
  | none => (Talk.rejudge ctx { t with ring := { t.ring with fi } }).andThen (Talk.pump ctx)

/-- RESUME applies (R103, R118). -/
def Talk.resumed (ctx : ChannelContext) (t : Talk) : Out Talk :=
  let o := if t.state == .halted then
      (Talk.rejudge ctx { t with state := .armed, haltCause := none, resumeWaits := false }).andThen (Talk.pump ctx)
    else Out.only { t with resumeWaits := false }
  { o with done := true }

/-- A CLOSE completes (R120). -/
def Talk.closeComplete (ctx : ChannelContext) (t : Talk) : Out Talk :=
  { { t with
      state := .closed, tag := none, bound := none, staging := [], readPoint := none, onLine := none,
      sequence := none, endWait := false, closeTaken := false, haltCause := none, heldHalts := [] }.withCore
      (t.toChannelCore.close ctx none) with done := true }

/-- The fault notice and the end of a leave at one channel (R30, R32, R117, R120, R155): a bound channel loses its
slot, and a CLOSE or RESUME that waits proceeds at once. LIF's cut-off report is taken before the notice, so that a halt
held for the burst is taken and not dropped by the rewind (DESIGN CHOICE, log entry 31). -/
def Talk.leaveLink (ctx : ChannelContext) (t : Talk) : Out Talk :=
  let o := (t.cutOff ctx).andThen fun t =>
    if t.bound.isSome then t.loseSlot ctx else Out.only t
  (o.andThen fun t => if t.resumeWaits then t.resumed ctx else Out.only t).andThen fun t =>
    if t.closeTaken then t.closeComplete ctx else Out.only t

/-- TKE's boundary work at one channel: a RESUME that waits applies, and the CLOSE of an unbound channel completes
(R103, R120). -/
def Talk.boundary (ctx : ChannelContext) (t : Talk) : Out Talk :=
  (if t.resumeWaits then t.resumed ctx else Out.only t).andThen fun t =>
    if t.closeTaken && t.bound.isNone then t.closeComplete ctx else Out.only t

end Sys2Proof.Machine
end

