-- ==== Sys2Proof/Machine/Channels.lean ====
section
/-! DEFINITION. How an event at one channel acts on the part: TKE and LNE as a whole, and the commands that name a
channel (chapters 6, 7 and 9). -/

namespace Sys2Proof.Machine

/-- The context of a talk channel's event. -/
def State.talkContext (s : State) (k : TalkId) : ChannelContext :=
  { channel := talkChannel k, stamp := s.stamp }

/-- The context of a listen channel's event. -/
def State.listenContext (s : State) (k : ListenId) : ChannelContext :=
  { channel := listenChannel k, stamp := s.stamp }

/-- What a channel's outcome brings about outside the channel: requests to MPT, records to EVQ, the completion of the
command in the mailbox. -/
def State.carry {α : Type} (s : State) (c : ChannelId) (o : Out α) : State :=
  let s := (s.enqueue c o.requests).postAll o.records
  if o.done then s.commandComplete else s

/-- An event at a talk channel. -/
def State.applyTalk (s : State) (k : TalkId) (f : ChannelContext → Talk → Out Talk) : State :=
  let o := f (s.talkContext k) s.talk[k]
  let s := (s.setTalk k o.chan).carry (talkChannel k) o
  if o.release then s.endRelease k else s

/-- An event at a listen channel. -/
def State.applyListen (s : State) (k : ListenId) (f : ChannelContext → Listen → Out Listen) : State :=
  let o := f (s.listenContext k) s.listen[k]
  (s.setListen k o.chan).carry (listenChannel k) o

/-- The same event at every talk channel, 0 to 7. -/
def State.eachTalk (s : State) (f : ChannelContext → Talk → Out Talk) : State :=
  (List.finRange 8).foldl (fun s k => s.applyTalk k f) s

/-- The same event at every listen channel, 0 to 7. -/
def State.eachListen (s : State) (f : ChannelContext → Listen → Out Listen) : State :=
  (List.finRange 8).foldl (fun s k => s.applyListen k f) s

/-! ## Boundary work -/

/-- TKE's work on the settled notice (R120). -/
def State.talkWork (s : State) : State :=
  if s.boundary.talk then
    (s.setBoundary { s.boundary with talk := false }).eachTalk Talk.boundary
  else s

/-- The owner of a map entry, the station itself included (R125). -/
def Entry.ownerOf (self : StationId) : Entry → Option StationId
  | .own .. => some self
  | .peer owner .. => some owner
  | .free | .quarantine _ => none

/-- The tag of an OWNED entry. -/
def Entry.tagOf : Entry → Option Tag
  | .own tag .. => some tag
  | .peer _ tag .. => some tag
  | .free | .quarantine _ => none

/-- The slots whose entry is OWNED with a tag, lowest first (R125). -/
def State.slotsWithTag (s : State) (tag : Tag) : List Slot :=
  (List.finRange 32).filter fun i => s.smap.entries[i].tagOf == some tag

/-- The found slot of a channel's tag, with its owner (R125). -/
def State.foundSlot (s : State) (tag : Tag) : Option (Slot × StationId) :=
  (s.slotsWithTag tag).head?.map fun i => (i, (s.smap.entries[i].ownerOf s.selfId).getD 0)

/-- Resolution of one listen channel against the settled map (R125 step 3). -/
def State.resolveListen (s : State) (k : ListenId) : State :=
  match s.listen[k].tag with
  | none => s
  | some tag =>
    s.applyListen k fun ctx => Listen.resolve ctx (s.foundSlot tag) (s.slotsWithTag tag).length

/-- LNE's work on the settled notice: a waiting RESUME, a waiting CLOSE, then resolution (R125). -/
def State.listenWork (s : State) : State :=
  if s.boundary.listen then
    let s := (s.setBoundary { s.boundary with listen := false }).eachListen Listen.applyWaiting
    (List.finRange 8).foldl State.resolveListen s
  else s

/-! ## Commands that name a channel -/

/-- The station states in which a channel may be opened (R107, R124, R152). -/
def StationState.opens : StationState → Bool
  | .ready | .listening | .joined => true
  | .off | .leaving | .fault => false

/-- OPEN_TALK (R107, R152). -/
def State.openTalkCommand (s : State) : ResultCode × State :=
  if !s.stc.state.opens then (.badState, s)
  else
    match openParamsOf s.hpt.params with
    | none => (.badParam, s)
    | some p =>
      if s.talk[p.channel].state != .closed then (.channelState, s)
      else (.ok, s.applyTalk p.channel fun ctx => Talk.opened ctx p)

/-- OPEN_LISTEN (R124, R152). -/
def State.openListenCommand (s : State) : ResultCode × State :=
  if !s.stc.state.opens then (.badState, s)
  else
    match openParamsOf s.hpt.params with
    | none => (.badParam, s)
    | some p =>
      if s.listen[p.channel].state != .closed then (.channelState, s)
      else (.ok, s.applyListen p.channel fun ctx => Listen.opened ctx p)

/-- A channel number among all 16 as a talk or a listen channel (section 9.2). -/
def splitChannel (c : ChannelId) : TalkId ⊕ ListenId :=
  if h : c.val < 8 then .inl ⟨c.val, h⟩ else .inr ⟨c.val - 8, by omega⟩

/-- A CLOSE taken for an open talk channel (R119): close taken, the abandon request for a bound slot (R45), the close
notice (R79); off the link it completes at once. -/
def State.closeTalk (s : State) (k : TalkId) : State :=
  let s := s.setTalk k { s.talk[k] with closeTaken := true }
  let s := match s.talk[k].bound with
    | some slot =>
      if s.smap.abandon.contains slot then s
      else s.setSmap { s.smap with abandon := s.smap.abandon ++ [slot] }
    | none => s
  let s := s.closeNotice k
  if s.inLink then s else s.applyTalk k Talk.closeComplete

/-- A CLOSE taken for an open listen channel (R137): off the link it is applied at once. -/
def State.closeListen (s : State) (k : ListenId) : State :=
  let s := s.setListen k { s.listen[k] with close := .taken }
  if s.inLink then s else s.applyListen k Listen.applyClose

/-- The CLOSE command (R152, R154): the mailbox shows BUSY until the engine reports it complete. -/
def State.closeCommand (s : State) (code : BitVec 8) : State :=
  match paramBelow 16 s.hpt.params[0] with
  | none => s.answer .badParam code
  | some c =>
    match splitChannel c with
    | .inl k =>
      if s.talk[k].state == .closed then s.answer .channelState code
      else (s.setMailbox (.busy code)).closeTalk k
    | .inr k =>
      if s.listen[k].state == .closed then s.answer .channelState code
      else (s.setMailbox (.busy code)).closeListen k

/-- The RESUME command (R103, R154): boundary-applied in a link state, applied when taken otherwise. -/
def State.resumeCommand (s : State) (code : BitVec 8) : State :=
  match paramBelow 16 s.hpt.params[0] with
  | none => s.answer .badParam code
  | some c =>
    match splitChannel c with
    | .inl k =>
      if s.talk[k].state != .halted then s.answer .channelState code
      else
        let s := (s.setMailbox (.busy code)).setTalk k { s.talk[k] with resumeWaits := true }
        if s.inLink then s else s.applyTalk k Talk.resumed
    | .inr k =>
      if s.listen[k].state != .halted then s.answer .channelState code
      else
        let s := (s.setMailbox (.busy code)).setListen k { s.listen[k] with resumeWaits := true }
        if s.inLink then s else s.applyListen k Listen.resumed

/-- A host write to a Fill index word (R90, R157, R176): bits 4:0 are the new FI. -/
def State.fillWrite (s : State) (c : ChannelId) (value : Word) : State :=
  let fi := index5 (value.extractLsb' 0 5)
  match splitChannel c with
  | .inl k => s.applyTalk k fun ctx => Talk.fill ctx fi
  | .inr k => s.applyListen k fun ctx => Listen.fill ctx fi

end Sys2Proof.Machine
end

