-- ==== Sys2Proof/Machine/MemoryPort.lean ====
section
/-! DEFINITION. The Memory Port (chapter 8). -/

namespace Sys2Proof.Machine

/-- The circular search that starts behind the pointer (R142): the first channel with a request waiting. -/
def Mpt.nextReady (m : Mpt) : Option ChannelId :=
  ((List.finRange 16).map fun i => m.pointer + 1 + i).find? fun c => !m.waiting[c].isEmpty

/-- The arbiter may grant: a free place and no absorption (R142, R148). -/
def Mpt.mayGrant (m : Mpt) : Bool :=
  decide (m.outstanding.length < Config.outstandingPlaces) && m.absorb == 0

/-- One grant (R140 to R142): the head of the next ready channel's waiting list is issued. -/
def Mpt.grant (m : Mpt) : Mpt :=
  if m.mayGrant then
    match m.nextReady with
    | none => m
    | some c =>
      match m.waiting[c] with
      | [] => m
      | r :: rest =>
        { m with waiting := m.waiting.set c rest, outstanding := m.outstanding ++ [r], pointer := c }
  else m

/-- A reset other than power-on: what is outstanding is to be absorbed, what waits is dropped (R147, R149). -/
def Mpt.absorbAll (m : Mpt) : Mpt :=
  { Mpt.powerOn with outstanding := m.outstanding, absorb := m.outstanding.length }

/-- A response is handed to the engine that owns the requester (R144) (DESIGN CHOICE for the words carried, log entry
19). -/
def State.handResponse (s : State) (r : MemRequest) (error : Bool) (data : Vector Word 8) : State :=
  let words := if error then none else some data.toList
  match splitChannel r.requester with
  | .inl k => s.applyTalk k fun ctx => Talk.response ctx words
  | .inr k => s.applyListen k fun ctx => Listen.response ctx words

/-- The host bus answers the oldest outstanding request (R144), or an old one is absorbed (R148). -/
def State.takeResponse (s : State) (error : Bool) (data : Vector Word 8) : State :=
  match s.mpt.outstanding with
  | [] => s
  | r :: rest =>
    if 0 < s.mpt.absorb then
      s.setMpt { s.mpt with outstanding := rest, absorb := s.mpt.absorb - 1 }
    else (s.setMpt { s.mpt with outstanding := rest }).handResponse r error data

end Sys2Proof.Machine
end

