-- ==== Sys2Proof/Machine/SlotMap.lean ====
section
/-! DEFINITION. The Slot Map (chapter 3): the evidence of a round and the boundary work on it. -/

namespace Sys2Proof.Machine

/-! ## Entries and evidence -/

/-- An entry changes. -/
def State.setEntry (s : State) (slot : Slot) (e : Entry) : State :=
  s.setSmap { s.smap with entries := s.smap.entries.set slot e }

/-- An entry newly OWNED(X, t): silent count 0, or mismatch count 0 for the station itself; no rival (R49). -/
def Entry.ownedBy (self x : StationId) (tag : Tag) : Entry :=
  if x = self then .own tag none 0 else .peer x tag 0 none

/-- The valid burst an observation is evidence of: its station and tag (R43). -/
def Observation.evidence (self : StationId) : Observation → Option (StationId × Tag)
  | .silent | .bad => none
  | .valid owner tag => some (owner, tag)
  | .sentMatch tag => some (self, tag)
  | .sentMismatch readback => readback

/-- The monitor result of an observation: true for MATCH (R43). -/
def Observation.monitor : Observation → Option Bool
  | .silent | .bad | .valid .. => none
  | .sentMatch _ => some true
  | .sentMismatch _ => some false

/-- The slot's valid burst in the round record (R43). -/
def State.evidence (s : State) (slot : Slot) : Option (StationId × Tag) :=
  s.smap.observations[slot].bind (Observation.evidence s.selfId)

/-- LIF hands SMAP a slot's observation (R20, R43). -/
def State.observe (s : State) (slot : Slot) (o : Observation) : State :=
  s.setSmap { s.smap with observations := s.smap.observations.set slot (some o) }

/-- The entry after one more silent round of a peer (R53). -/
def Entry.silentRound (owner : StationId) (tag : Tag) (silent : Nat) (rival : Option StationId) : Entry :=
  if Config.lease ≤ silent + 1 then .free else .peer owner tag (silent + 1) rival

/-- The causes of SLOT_LOST (R177). -/
inductive LossCause where
  | taken | collision
deriving DecidableEq, Repr

/-- SLOT_LOST's detail (R177). -/
def LossCause.code : LossCause → Nat
  | .taken => 1
  | .collision => 2

/-- An own slot is lost: SLOT_LOST, and TKE's notice to unbind and rewind the channel (R52, R55) (DEDUCED for a slot
no channel is bound to, log entry 29). -/
def State.slotLost (s : State) (slot : Slot) (cause : LossCause) (station : Option StationId) : State :=
  match s.talkAt slot with
  | some k =>
    (s.post (event .slotLost cause.code (channel := some (talkChannel k)) (slot := some slot) (station := station)
      (tag := s.talk[k].tag))).applyTalk k Talk.loseSlot
  | none => s.post (event .slotLost cause.code (slot := some slot) (station := station))

/-- TKE's notice that the channel bound to a slot is unbound, without a rewind (R59, R60). -/
def State.slotUnbound (s : State) (slot : Slot) : State :=
  match s.talkAt slot with
  | some k => s.applyTalk k fun _ t => Out.only t.unbind
  | none => s

/-! ## The six steps (R47) -/

/-- Step 1, evidence (R49 to R52). -/
def State.evidenceStep (s : State) (slot : Slot) : State :=
  match s.evidence slot with
  | none => s
  | some (x, t) =>
    match s.smap.entries[slot] with
    | .free | .quarantine _ => s.setEntry slot (.ownedBy s.selfId x t)
    | .peer owner tag silent rival =>
      if owner = x then s.setEntry slot (.peer owner t 0 none)
      else if rival = some x then s.setEntry slot (.ownedBy s.selfId x t)
      else s.setEntry slot (.silentRound owner tag silent (some x))
    | .own tag rival mismatches =>
      if x = s.selfId then s.setEntry slot (.own tag none mismatches)
      else if rival = some x then (s.setEntry slot (.peer x t 0 none)).slotLost slot .taken (some x)
      else s.setEntry slot (.own tag (some x) mismatches)

/-- Step 2, silence (R53). -/
def State.silenceStep (s : State) (slot : Slot) : State :=
  match s.evidence slot, s.smap.entries[slot] with
  | none, .peer owner tag silent _ => s.setEntry slot (.silentRound owner tag silent none)
  | _, _ => s

/-- Step 3, own slot: the transmit monitor and the collision yield (R54, R55). -/
def State.ownStep (s : State) (slot : Slot) : State :=
  match s.smap.entries[slot] with
  | .own tag rival mismatches =>
    let rival := if (s.evidence slot).isSome then rival else none
    match s.smap.observations[slot].bind Observation.monitor with
    | none => s.setEntry slot (.own tag rival mismatches)
    | some true => s.setEntry slot (.own tag rival 0)
    | some false =>
      if mismatches = 0 then s.setEntry slot (.own tag rival 1)
      else (s.setEntry slot (.quarantine Config.lease)).slotLost slot .collision none
  | .free | .peer .. | .quarantine _ => s

/-- The talk channel of the SENT-WON CLAIM (R57). -/
def State.claimingChannel (s : State) : Option TalkId :=
  (s.cle.queue.find? fun r => r.kind == .claim && r.phase == .sentWon).map ClaimRequest.channel

/-- SMAP offers the binding of the claiming channel to the slot: bound, or quarantined if the channel declines it, as one
with a CLOSE taken does (R57, R110) (DEDUCED, log entries 26 and 29). -/
def State.offerBinding (s : State) (slot : Slot) (tag : Tag) : State :=
  match s.claimingChannel with
  | none => s
  | some k =>
    if s.talk[k].takesBinding then (s.setEntry slot (.own tag none 0)).applyTalk k fun ctx => Talk.bind ctx slot
    else s.setEntry slot (.quarantine Config.lease)

/-- Step 4, the round's claim message (R56 to R59). -/
def State.claimStep (s : State) (slot : Slot) : State :=
  match s.smap.message with
  | none => s
  | some m =>
    if m.slot ≠ slot then s
    else if m.station = s.selfId ∧ s.smap.part ≠ .won then s
    else
      match m.kind, s.smap.entries[slot] with
      | .claim, .free =>
        if (s.evidence slot).isSome then s
        else if m.station = s.selfId then s.offerBinding slot m.tag
        else s.setEntry slot (.peer m.station m.tag 0 none)
      | .release, .peer owner .. => if owner = m.station then s.setEntry slot .free else s
      | .release, .own .. => if m.station = s.selfId then (s.setEntry slot .free).slotUnbound slot else s
      | _, _ => s

/-- Step 5, abandon (R60). -/
def State.abandonStep (s : State) (slot : Slot) : State :=
  if s.smap.abandon.contains slot then
    match s.smap.entries[slot] with
    | .own .. => (s.setEntry slot (.quarantine Config.lease)).slotUnbound slot
    | .free | .peer .. | .quarantine _ => s
  else s

/-- The entry is in QUARANTINE. -/
def Entry.isQuarantine : Entry → Bool
  | .quarantine _ => true
  | .free | .own .. | .peer .. => false

/-- Step 6, quarantine countdown of an entry that no earlier step changed at this boundary (R61): it was in QUARANTINE
before, and without evidence in the slot no step changes such an entry. -/
def State.countdownStep (s : State) (slot : Slot) (before : Entry) : State :=
  match s.smap.entries[slot] with
  | .quarantine remaining =>
    if before.isQuarantine && (s.evidence slot).isNone then
      s.setEntry slot (if remaining ≤ 1 then .free else .quarantine (remaining - 1))
    else s
  | .free | .own .. | .peer .. => s

/-- The six steps at one slot (R47). -/
def State.slotStep (s : State) (slot : Slot) : State :=
  (((((s.evidenceStep slot).silenceStep slot).ownStep slot).claimStep slot).abandonStep slot).countdownStep slot
    s.smap.entries[slot]

/-! ## The boundary work (R47, R48, R62) -/

/-- The used slots, 0 to N−1 in turn (R47). -/
def State.usedSlots (s : State) : List Slot :=
  (List.finRange 32).filter fun i => decide (i.val < s.slots)

/-- The lowest slot with a valid burst that carries the station's own id and that the station did not send (R48). -/
def State.duplicateScan (s : State) : Option DuplicateReport :=
  s.usedSlots.findSome? fun i =>
    match s.smap.observations[i] with
    | some (.valid owner tag) => if owner = s.selfId then some { slot := i, tag } else none
    | _ => none

/-- The round record and the abandon set emptied (R46, R47, R63). -/
def Smap.emptied (m : Smap) : Smap :=
  { m with observations := Vector.replicate 32 none, message := none, part := .notSent, abandon := [] }

/-- Every entry FREE, the round record and the abandon set empty, the stamp kept (R46). -/
def Smap.freed (m : Smap) : Smap :=
  { m.emptied with entries := Vector.replicate 32 .free }

/-- The end of the boundary work: the last applied stamp, an empty round record, the settled notice (R47, R62). -/
def State.settle (s : State) : State :=
  (s.setSmap { s.smap.emptied with stamp := s.stamp }).setBoundary
    { s.boundary with claims := true, talk := true, listen := true }

/-- SMAP's boundary work (R47): the duplicate-id scan, and if it finds nothing the six steps slot by slot. -/
def State.slotMapWork (s : State) : State :=
  if s.boundary.slotMap then
    let s := s.setBoundary { s.boundary with slotMap := false }
    match s.duplicateScan with
    | some report => s.setStc { s.stc with report := some report }
    | none => (s.usedSlots.foldl State.slotStep s).settle
  else s

/-- Entries OWNED by the station itself (R30, R158). -/
def Smap.ownCount (m : Smap) : Nat :=
  ((List.finRange 32).filter fun i => match m.entries[i] with
    | .own .. => true
    | .free | .peer .. | .quarantine _ => false).length

end Sys2Proof.Machine
end

