-- ==== Sys2Proof/Machine/Station.lean ====
section
/-! DEFINITION. The Station Controller (chapter 2) and what its state changes do to the other blocks. -/

namespace Sys2Proof.Machine

/-! ## Leaving the link states -/

/-- LIF stops driving and ignores the line; the receive-error counters stay (R1, R17, R18). -/
def Lif.stopped (l : Lif) : Lif :=
  { l with activity := .idle, opened := 0, lastDominant := 0, watchesFrom := 0 }

/-- RTM stops; the round counter keeps its value (R4). -/
def Rtm.halted (r : Rtm) : Rtm :=
  { r with elapsed := none, lastMarker := none, strike := false, mismatchSeen := false }

/-- The station is off the link: LIF, RTM stopped, no boundary work waits (R4, R17). -/
def State.stopLink (s : State) : State :=
  ((s.setLif s.lif.stopped).setRtm s.rtm.halted).setBoundary .nothing

/-- Every channel loses its binding, and a CLOSE or RESUME that waits proceeds (R30, R32, R136, R155). -/
def State.unbindChannels (s : State) : State :=
  (s.eachTalk Talk.leaveLink).eachListen Listen.leaveLink

/-- The station enters READY at the end of a leave, with LINK_LEFT (R27, R30). LINK_LEFT comes after the records the
channels make at their unbinding (DESIGN CHOICE for the order, log entry 10). A report that waits at STC stays (R31). -/
def State.enterReady (s : State) : State :=
  let abandoned := s.smap.ownCount
  let s := s.stopLink
  let s := s.setSmap s.smap.freed
  let s := s.unbindChannels
  (s.setStc { s.stc with
      state := .ready, leavePending := false, leaveMarks := Vector.replicate 8 false }).post
    (event .linkLeft abandoned)

/-- Entry into FAULT (R31, R32): the cause, FAULT_ENTERED, and the fault notice to every block (DESIGN CHOICE for the
order of records, log entry 10). -/
def State.enterFault (s : State) (cause : FaultCause) (slot : Option Slot) (tag : Option Tag) : State :=
  let s := s.setStc { s.stc with
    state := .fault, cause := some cause, leavePending := false, leaveMarks := Vector.replicate 8 false,
    report := none }
  let s := s.post (event .faultEntered cause.code (slot := slot) (tag := tag))
  let s := s.stopLink
  let s := s.setSmap s.smap.emptied
  s.withdrawAll.unbindChannels

/-- A report is taken in a link state, and in READY where STC's boundary work taken before it has just ended a leave
(R31). -/
def StationState.takesReport : StationState → Bool
  | .listening | .joined | .leaving | .ready => true
  | .off | .fault => false

/-- A duplicate-id report that waits at STC is taken as cause DUPLICATE_ID (R31, R48). No run has a report in OFF or
FAULT, where it is dropped (DEDUCED, log entry 7). -/
def State.takeReport (s : State) : State :=
  match s.stc.report with
  | none => s
  | some r =>
    if s.stc.state.takesReport then s.enterFault .duplicateId (some r.slot) (some r.tag)
    else s.setStc { s.stc with report := none }

/-! ## Receive quality (R35, R36) -/

/-- LIF reports a receive error to STC (R18, R35). -/
def State.countError (s : State) : State :=
  if s.inLink then s.setStc { s.stc with windowErrors := countUp 255 s.stc.windowErrors 1 } else s

/-- The band a window's errors give (R36). -/
def Band.judged (b : Band) (errors : Nat) : Band :=
  match b with
  | .good => if 8 ≤ errors then .degraded else .good
  | .degraded => if errors ≤ 1 then .good else .degraded

/-- A boundary advances the window rounds; the 64th judges the band and starts a new window (R35, R36). -/
def State.windowRound (s : State) : State :=
  if s.stc.windowRounds + 1 < Config.windowRounds then
    s.setStc { s.stc with windowRounds := s.stc.windowRounds + 1 }
  else
    let band := s.stc.band.judged s.stc.windowErrors
    let changed := band != s.stc.band
    let s := s.setStc { s.stc with band, windowRounds := 0, windowErrors := 0 }
    if changed then s.post (event .bandChanged band.code) else s

/-! ## Boundary work (R26, R27, R29) -/

/-- The learn count at a boundary in LISTENING (R26). -/
def State.learnRound (s : State) : State :=
  let learn := s.stc.learn + 1
  if Config.learnRounds ≤ learn then
    (s.setStc { s.stc with learn, state := .joined }).post (event .linkJoined)
  else s.setStc { s.stc with learn }

/-- STC has CLE queue a RELEASE for a bound channel with no request and no leave mark, and marks it (R28, R29). -/
def State.leaveRelease (s : State) (k : TalkId) : State :=
  if s.talk[k].bound.isSome && !s.cle.holds k && !s.stc.leaveMarks[k] then
    (s.joinRelease k).setStc { s.stc with leaveMarks := s.stc.leaveMarks.set k true }
  else s

/-- The leave releases in channel order (R28, R29). -/
def State.leaveReleases (s : State) : State :=
  (List.finRange 8).foldl State.leaveRelease s

/-- STC's own boundary work (R26, R27, R29, R30, R35) (DESIGN CHOICE for the order, log entry 25). -/
def State.stationRound (s : State) : State :=
  let s := s.setBoundary { s.boundary with station := false }
  match s.stc.state with
  | .listening => if s.stc.leavePending then s.windowRound.enterReady else s.learnRound.windowRound
  | .joined => s.windowRound
  | .leaving =>
    let s := s.leaveReleases.windowRound
    if s.cle.queue.isEmpty then s.enterReady else s
  | .off | .ready | .fault => s

/-- The boundary work of SMAP, CLE, TKE and LNE that still waits (R62). -/
def State.finishOthers (s : State) : State :=
  s.slotMapWork.claimWork.talkWork.listenWork

/-- Where the station is leaving, STC's work comes after the other blocks' and uses their results (R27, R29) (DESIGN
CHOICE, log entry 4). -/
def State.beforeStation (s : State) : State :=
  if s.stc.leavePending || s.stc.state == .leaving then s.finishOthers else s

/-- STC's boundary work when the boundary reaches it. Taken before a duplicate-id report that waits with it, the work is
done whole, the end of a leave included, and FAULT follows (R31), in the same step (DESIGN CHOICE, log entry 6). -/
def State.stationWork (s : State) : State :=
  if s.boundary.station then s.beforeStation.stationRound.takeReport else s

/-- All that still waits from the last boundary, a duplicate-id report before STC's own work (R31, R62) (DESIGN
CHOICE, log entry 4). -/
def State.finishBoundary (s : State) : State :=
  s.finishOthers.takeReport.stationWork

/-! ## The commands of STC -/

/-- START (R23). -/
def State.startCommand (s : State) : ResultCode × State :=
  if s.stc.state != .off then (.badState, s)
  else
    match startRecordOf s.hpt.params with
    | none => (.badParam, s)
    | some r => (.ok, (s.setStc { s.stc with start := some r, state := .ready }).setSmap s.smap.freed)

/-- JOIN (R25): R22's JOIN values, a clear map, RTM counting E from 0, LIF in a link state. -/
def State.joinCommand (s : State) : ResultCode × State :=
  if s.stc.state != .ready then (.badState, s)
  else
    let s := s.setStc { Stc.powerOn with state := .listening, start := s.stc.start }
    let s := s.setSmap .clear
    let s := s.setRtm { Rtm.stopped with elapsed := some 0 }
    (.ok, s.setLif s.lif.stopped)

/-- The leave marks of channels with a RELEASE in the queue (R28). -/
def State.markReleases (s : State) : State :=
  s.cle.queue.foldl (fun s r =>
    if r.kind == .release then s.setStc { s.stc with leaveMarks := s.stc.leaveMarks.set r.channel true } else s) s

/-- A LEAVE that reaches STC after STC's work for a boundary finds the queue and the bindings as that boundary leaves
them (section 2.4, corner cases), so the other blocks' shares that still wait come first. A LEAVE before it leaves them
waiting, and the boundary is the first LEAVING boundary (R29). -/
def State.beforeLeave (s : State) : State :=
  if s.boundary.station then s else s.finishOthers

/-- LEAVE in JOINED (R28, R80). -/
def State.leaveJoined (s : State) : State :=
  let s := s.beforeLeave
  let s := s.setStc { s.stc with state := .leaving, leaveMarks := Vector.replicate 8 false }
  s.withdrawClaims.markReleases.leaveReleases

/-- LEAVE (R27, R28, R34). -/
def State.leaveCommand (s : State) : ResultCode × State :=
  match s.stc.state with
  | .listening => (.ok, s.setStc { s.stc with leavePending := true })
  | .joined => (.ok, s.leaveJoined)
  | .fault =>
    (.ok, ((s.setStc { s.stc with state := .ready, cause := none }).setSmap s.smap.freed).post (event .linkLeft))
  | .off | .ready | .leaving => (.badState, s)

end Sys2Proof.Machine
end

