-- ==== Sys2Proof/Machine/BoundaryEvents.lean ====
section
/-! DEFINITION. The commands of the blocks themselves: the shares of a round boundary (R8, R62), the taking of a fault
cause (R31), and the Memory Port (R142, R144). -/

namespace Sys2Proof.Machine

/-- A fault cause that waits at STC is taken (R31, R32). -/
def execFaultEntry (s : State) : Host.Outcome State Fault Refusal := .next s.takeReport

/-- SMAP's boundary work (R47). -/
def execSlotMapBoundaryWork (s : State) : Host.Outcome State Fault Refusal := .next s.slotMapWork

/-- CLE's boundary work (R74 to R77). -/
def execClaimSettle (s : State) : Host.Outcome State Fault Refusal := .next s.claimWork

/-- TKE's boundary work (R120). -/
def execTalkBoundaryWork (s : State) : Host.Outcome State Fault Refusal := .next s.talkWork

/-- LNE's boundary work (R125). -/
def execListenBoundaryWork (s : State) : Host.Outcome State Fault Refusal := .next s.listenWork

/-- STC's boundary work (R26, R27, R29, R35). -/
def execStationBoundaryWork (s : State) : Host.Outcome State Fault Refusal := .next s.stationWork

/-- A grant of the arbiter (R142) (DESIGN CHOICE, log entry 18). -/
def execArbiterGrant (s : State) : Host.Outcome State Fault Refusal := .next (s.setMpt s.mpt.grant)

/-- A response of the host bus (R144, R148). -/
def execMemoryResponse (error : Bool) (data : Vector Word 8) (s : State) : Host.Outcome State Fault Refusal :=
  .next (s.takeResponse error data)

end Sys2Proof.Machine
end

