-- ==== Sys2Proof/Machine/Link.lean ====
section
/-! DEFINITION. The Round Timer and the Line Interface (chapter 1): markers, the claim window, the data slots. Times
are values of E in bit times. -/

namespace Sys2Proof.Machine

/-! ## Time and receive errors -/

/-- E runs on to a time (DEDUCED for the unit, log entry 3). -/
def State.reach (s : State) (time : Nat) : State :=
  s.setRtm { s.rtm with elapsed := some (max s.now time) }

/-- E reaches 2P: LINE_STUCK and FAULT with cause STUCK (R10). -/
def State.lineStuck (s : State) : State :=
  (s.setFlags { s.hpt.flags with lineStuck := true }).enterFault .stuck none none

/-- An event that ends at a time: if E passes 2P before it, the stuck line comes first (R10) (DESIGN CHOICE, log entry
2). -/
def State.timed (s : State) (time : Nat) (f : State → State) : State :=
  if 2 * s.period < max s.now time then s.lineStuck else f (s.reach time)

/-- MARKER_EARLY is counted and reported (R18). -/
def State.markerEarlyError (s : State) : State :=
  (s.setLif { s.lif with markerEarly := countUp Config.countLimit s.lif.markerEarly 1 }).countError

/-- CLAIM_CHECK is counted and reported (R18). -/
def State.claimCheckError (s : State) : State :=
  (s.setLif { s.lif with claimCheck := countUp Config.countLimit s.lif.claimCheck 1 }).countError

/-- BURST_CHECK is counted and reported (R18). -/
def State.burstCheckError (s : State) : State :=
  (s.setLif { s.lif with burstCheck := countUp Config.countLimit s.lif.burstCheck 1 }).countError

/-! ## Markers (R2, R5 to R9) -/

/-- The line has read recessive for the last 20 bit times before a time (R2) (DEDUCED, log entry 14). -/
def State.idleAt (s : State) (time : Nat) : Bool :=
  s.lif.activity == .idle && s.lif.lastDominant + Config.idleBits ≤ time

/-- LIF watches for a marker whose first bit is at a time: the line is idle before it, and it lies in nothing that LIF
sends or receives (R2). -/
def State.watchesAt (s : State) (time : Nat) : Bool :=
  s.idleAt time && s.lif.watchesFrom ≤ time

/-- Where the last dominant bit read ends once bits that began at E = `start` have been read (R2). -/
def State.dominantAfter (s : State) (start : Nat) (bits : List Bool) : Nat :=
  if dominantEnd bits = 0 then s.lif.lastDominant else max s.lif.lastDominant (start + dominantEnd bits)

/-- LIF has done with an element or a marker that began at E = `start`: it has read the bits and watches again. -/
def State.elementRead (s : State) (start : Nat) (bits : List Bool) : State :=
  s.setLif { s.lif with
    activity := .idle, lastDominant := s.dominantAfter start bits, watchesFrom := start + bits.length }

/-- The times at which the elements of the round open (R3). -/
def State.openings (s : State) : List Nat :=
  if s.rtm.lastMarker.isSome then
    Config.windowOpens :: (List.range s.slots).map fun i => Config.slotsOpen + Config.slotBits * i
  else []

/-- A claim window or slot of the round opens while a marker is being recognized or read, or with its first bit (R2)
(DEDUCED, log entry 14). -/
def State.opensWithin (s : State) (began bits : Nat) : Bool :=
  s.openings.any fun t => decide (began ≤ t) && decide (t < began + bits)

/-- The bits of a transmission that LIF reads while it watches: those before an element that is still to open, whose own
command then gives the bits from there on (R2) (DEDUCED, log entry 14). -/
def State.bitsRead (s : State) (began : Nat) (bits : List Bool) : List Bool :=
  match s.openings.find? fun t => decide (began ≤ t) && decide (t < began + bits.length) && decide (s.now ≤ t) with
  | some t => bits.take (t - began)
  | none => bits

/-- LIF reads bits without taking a marker from them: recognition ended, or was abandoned as an element opened, or did not
begin (R2). They are discarded, but the line was not recessive while they were dominant. -/
def State.lineRead (s : State) (began : Nat) (bits : List Bool) : State :=
  let read := s.bitsRead began bits
  s.timed (began + read.length) fun s => s.setLif { s.lif with lastDominant := s.dominantAfter began read }

/-- Slots that had not opened are SILENT when a marker is accepted; before the first marker there are none (R3, R8). -/
def State.closeRecord (s : State) : State :=
  if s.rtm.lastMarker.isSome then
    s.usedSlots.foldl (fun s i => if s.smap.observations[i].isNone then s.observe i .silent else s) s
  else s

/-- Acceptance (R7, R8): E restarts from the marker's first bit, the counter advances, the strike is cleared if no
mismatch came in this round (R9), and the boundary goes to every block. -/
def State.acceptMarker (s : State) (began : Nat) (bits : BitVec 24) : State :=
  let s := s.closeRecord
  let s := s.setRtm
    { elapsed := some (s.now - began)
      lastMarker := some (s.rtm.lastMarker.getD 0 + began)
      counter := s.rtm.counter + 1
      strike := s.rtm.strike && s.rtm.mismatchSeen
      mismatchSeen := false }
  let s := s.setLif
    { s.lif with activity := .idle, opened := 0, lastDominant := dominantEnd (bitsOf bits), watchesFrom := 24 }
  s.setBoundary { slotMap := true, claims := false, talk := false, listen := false, station := true }

/-- A mismatching marker (R9): the flag, and the strike or, with the strike set, FAULT with cause SHAPE (DESIGN CHOICE
for the moment of the entry, log entry 6). -/
def State.shapeMismatch (s : State) : State :=
  let s := s.setFlags { s.hpt.flags with shapeMismatch := true }
  if s.rtm.strike then s.enterFault .shape none none
  else s.setRtm { s.rtm with strike := true, mismatchSeen := true }

/-- The own shape code (R24). -/
def State.shapeCode (s : State) : Nat :=
  match s.stc.start with
  | some r => r.shape.code
  | none => 0

/-- The station's own marker (R5, R172). -/
def State.marker (s : State) : BitVec 24 :=
  match s.stc.start with
  | some r => ownMarker r.shape
  | none => ownMarker .slots8

/-- RTM judges a heard marker that began at E = `began` (R7). -/
def State.judgeMarker (s : State) (began : Nat) (bits : BitVec 24) : State :=
  let s := s.elementRead began (bitsOf bits)
  if !markerGood bits then s
  else if markerCodeOf bits ≠ s.shapeCode then s.shapeMismatch
  else if s.rtm.lastMarker.isNone ∨ s.period ≤ 2 * began then s.acceptMarker began bits
  else s.markerEarlyError

/-- A heard marker's last bit is read (R2, R6, R7). A marker the station began itself is judged from its own first
bit; another is recognized only after an idle line, outside everything LIF sends or receives, on the pattern, and unless
an element of the round opens meanwhile. Of bits that are no such marker LIF keeps only that the line was not idle. -/
def State.heardMarker (s : State) (began : Nat) (bits : BitVec 24) : State :=
  if s.inLink then
    match s.lif.activity with
    | .marker own => s.timed (own + 24) fun s => s.judgeMarker own bits
    | .idle =>
      if s.watchesAt began && markerPatternOf bits == Config.markerPattern && !s.opensWithin began 24 then
        s.timed (began + 24) fun s => s.judgeMarker began bits
      else s.lineRead began (bitsOf bits)
    | .window _ | .sending .. | .receiving _ => s
  else s

/-- The own marker's 24 bits have gone out with matching readback (R6). -/
def State.markerSent (s : State) : State :=
  if s.inLink then
    match s.lif.activity with
    | .marker own => s.timed (own + 24) fun s => s.acceptMarker own s.marker
    | .idle | .window _ | .sending .. | .receiving _ => s
  else s

/-- The station begins its own marker at a time (R5). -/
def State.beginMarker (s : State) (time : Nat) : State :=
  s.setLif { s.lif with activity := .marker time }

/-- E reaches P (R5). -/
def State.reachPeriod (s : State) (lineIdle : Bool) : State :=
  if s.inLink && s.now ≤ s.period then
    let s := s.reach s.period
    if lineIdle && s.idleAt s.period then s.beginMarker s.period else s
  else s

/-- A waiting station finds the line idle (R5). -/
def State.lineIdleMarker (s : State) (time : Nat) : State :=
  let time := max s.now time
  if s.inLink && s.period ≤ time && s.idleAt time then s.timed time fun s => s.beginMarker time else s

/-- The bits read until recognition ended: the matching ones and the one that differs (R2). -/
def endedBits (matched : Nat) : List Bool :=
  (bitsOf Config.markerPattern).take matched ++ [!Config.markerPattern.getMsbD matched]

/-- Recognition of a marker the station did not begin ends, or is abandoned because an element of the round opens before
the bit that differs (R2): the bits are discarded, nothing is counted or handed on, and LIF watches again once the line
is next idle. -/
def State.recognitionEnded (s : State) (began matched : Nat) : State :=
  if s.inLink && s.watchesAt began && decide (1 ≤ matched) && decide (matched ≤ 15) then
    s.lineRead began (endedBits matched)
  else s

/-! ## The claim window (R11 to R13, R70) -/

/-- LIF can open the next element of the round at a time: a link state, an accepted marker, nothing on the line. -/
def State.mayOpen (s : State) (time : Nat) : Bool :=
  s.inLink && s.rtm.lastMarker.isSome && s.lif.activity == .idle && s.now ≤ time

/-- The claim window opens (R11, R70). -/
def State.openWindow (s : State) : State :=
  if s.mayOpen Config.windowOpens && s.lif.opened == 0 then
    let chosen := s.chooseMessage
    let s := chosen.1.reach Config.windowOpens
    s.setLif { s.lif with activity := .window chosen.2, opened := 1 }
  else s

/-- What LIF reads from a claim window: the round's message, the station's part, and whether the check was bad
(R13). -/
structure WindowReading where
  message  : Option ClaimMessage
  part     : WindowPart
  badCheck : Bool
deriving DecidableEq, Repr

/-- A received message is handed on only if a station of the same shape could have sent it (R13). -/
def handedMessage (slots : Nat) (m : ClaimMessage) : Option ClaimMessage :=
  if slots ≤ m.slot.val || (m.kind == .claim && m.tag == 0) then none else some m

/-- R13's table. A station that sent has won if all 27 message bits of the readback match (R12) (DEDUCED, log entry
12). -/
def readWindow (slots : Nat) (sent : Option ClaimMessage) (line : BitVec 28) : WindowReading :=
  let bits : BitVec 27 := line.extractLsb' 0 27
  let received (part : WindowPart) : WindowReading :=
    if messageGood bits then { message := handedMessage slots (messageOf bits), part, badCheck := false }
    else { message := none, part, badCheck := true }
  match sent with
  | some m => if m.bits = bits then { message := some m, part := .won, badCheck := false } else received .lost
  | none =>
    if line.getMsbD 0 then { message := none, part := .notSent, badCheck := false } else received .notSent

/-- The window has been read without sending and its start bit was recessive (R1, R13). -/
def windowEmpty (sent : Option ClaimMessage) (line : BitVec 28) : Bool :=
  sent.isNone && line.getMsbD 0

/-- The claim window's result (R13, R20): SMAP's message, CLE's result, a receive error. -/
def State.endWindow (s : State) (line : BitVec 28) : State :=
  match s.lif.activity with
  | .window sent =>
    let reading := readWindow s.slots sent line
    let s := if windowEmpty sent line then s.setLif { s.lif with activity := .idle }
      else s.elementRead Config.windowOpens (bitsOf line)
    let s := s.reach (Config.windowOpens + if windowEmpty sent line then 1 else 28)
    let s := s.setSmap { s.smap with message := reading.message, part := reading.part }
    let s := if reading.badCheck then s.claimCheckError else s
    s.windowResult reading.part
  | .idle | .marker _ | .sending .. | .receiving _ => s

/-! ## The data slots (R14 to R16) -/

/-- When slot `i` opens (R3). -/
def slotTime (i : Nat) : Nat := Config.slotsOpen + Config.slotBits * i

/-- The next slot to open: the claim window has opened, and so have the slots before (R3). -/
def State.nextSlot (s : State) : Option Slot :=
  if h : 1 ≤ s.lif.opened ∧ s.lif.opened ≤ 32 then
    if s.lif.opened - 1 < s.slots then some ⟨s.lif.opened - 1, by omega⟩ else none
  else none

/-- The station sends in its own slots (R14). -/
def StationState.sendsBursts : StationState → Bool
  | .joined | .leaving => true
  | .off | .ready | .listening | .fault => false

/-- The channel that answers LIF's request for a burst in a slot (R14, R111). -/
def State.sender (s : State) (slot : Slot) : Option TalkId :=
  if s.stc.state.sendsBursts then s.talkAt slot else none

/-- LIF samples the start bit of a slot in which it does not transmit (R16). -/
def State.sampleSlot (s : State) (slot : Slot) (startRecessive : Bool) : State :=
  if startRecessive then (s.reach (slotTime slot.val + 1)).observe slot .silent
  else s.setLif { s.lif with activity := .receiving slot }

/-- LIF sends the burst TKE hands it (R14, R111). -/
def State.sendBurst (s : State) (slot : Slot) (k : TalkId) : State :=
  let b := s.talk[k].burst s.selfId
  (s.setTalk k s.talk[k].afterBurst).setLif { s.lif with activity := .sending slot b }

/-- The next slot opens (R14, R16, R111). -/
def State.openSlot (s : State) (startRecessive : Bool) : State :=
  match s.nextSlot with
  | none => s
  | some slot =>
    if s.mayOpen (slotTime slot.val) then
      let s := (s.setLif { s.lif with opened := s.lif.opened + 1 }).reach (slotTime slot.val)
      match s.sender slot with
      | some k => s.sendBurst slot k
      | none => s.sampleSlot slot startRecessive
    else s

/-- LIF hands LNE a valid burst (R15, R16, R127). -/
def State.handBurst (s : State) (slot : Slot) (b : Burst) : State :=
  s.eachListen fun ctx => Listen.take ctx slot b

/-- The observation of an own burst (R15, R43) (DEDUCED, log entry 13). -/
def sentObservation (sent : Burst) (readback : LineBurst) : Observation :=
  if readbackMatches sent readback then .sentMatch sent.tag
  else .sentMismatch ((readbackBurst sent readback).map fun b => (b.owner, b.tag))

/-- The valid burst the readback of an own burst is (R15). -/
def heardBack (sent : Burst) (readback : LineBurst) : Option Burst :=
  if readbackMatches sent readback then some sent else readbackBurst sent readback

/-- TKE takes LIF's sent report of the burst in a slot (R15, R112). -/
def State.reportSent (s : State) (slot : Slot) : State :=
  match s.talkAt slot with
  | some k => s.applyTalk k Talk.sent
  | none => s

/-- The readback of an own burst finishes (R15, R20). -/
def State.endOwnBurst (s : State) (readback : LineBurst) : State :=
  match s.lif.activity with
  | .sending slot sent =>
    let n := sent.words.length
    let s := s.elementRead (slotTime slot.val) (readback.bits n)
    let s := s.reach (slotTime slot.val + burstBits n)
    let s := s.observe slot (sentObservation sent readback)
    let s := s.reportSent slot
    match heardBack sent readback with
    | some b => s.handBurst slot b
    | none => s
  | .idle | .marker _ | .window _ | .receiving _ => s

/-- A burst received in a slot where the station did not transmit ends (R16, R20). -/
def State.endHeardBurst (s : State) (burst : LineBurst) : State :=
  match s.lif.activity with
  | .receiving slot =>
    let s := s.elementRead (slotTime slot.val) burst.received
    let s := s.reach (slotTime slot.val + burst.received.length)
    match burst.valid with
    | some b => (s.observe slot (.valid b.owner b.tag)).handBurst slot b
    | none => (s.observe slot .bad).burstCheckError
  | .idle | .marker _ | .window _ | .sending .. => s

end Sys2Proof.Machine
end

