-- ==== Sys2Proof/Machine/HostPort.lean ====
section
/-! DEFINITION. The Host Port (chapters 9 and 11): the register window, the mailbox, the snapshots, the event pop, and
the three resets (R38 to R40). -/

namespace Sys2Proof.Machine

/-! ## Snapshots (R64, R158, R177) -/

/-- Half a snapshot word for a listen channel (R177). -/
def Listen.statusHalf (l : Listen) : Word :=
  place l.state.code 0 ||| placeBit l.bound.isSome 3 ||| place ((l.bound.map Fin.val).getD 0) 4
    ||| place l.ring.ci.val 9

/-- A talk channel's snapshot word (R177). -/
def Talk.statusWord (t : Talk) : Word :=
  place t.state.code 0 ||| place t.ring.ci.val 8 ||| place t.lateCount 16

/-- Word `i` of READ_STATUS's record (R158, R177). -/
def State.statusWord (s : State) (i : Nat) : Word :=
  if i = 0 then
    place s.stc.state.code 0 ||| place s.stc.band.code 3 ||| place ((s.stc.cause.map FaultCause.code).getD 0) 4
      ||| placeBit s.stc.start.isSome 6 ||| place s.stc.learn 8 ||| place s.stc.windowRounds 12
      ||| place s.stc.windowErrors 18
  else if i = 1 then
    match s.stc.start with
    | some r => place r.id.val 0 ||| place r.shape.code 8 ||| place r.period 16
    | none => 0
  else if i = 2 then s.rtm.counter
  else if i = 3 then
    place s.smap.ownCount 0 ||| place s.cle.queue.length 8 ||| place s.evq.queue.length 16
  else if i = 4 then place s.evq.dropped 0 ||| place s.lif.markerEarly 16
  else if i = 5 then place s.lif.claimCheck 0 ||| place s.lif.burstCheck 16
  else if h : 6 ≤ i ∧ i < 14 then (s.talk[i - 6]'(by omega)).statusWord
  else if h : 14 ≤ i ∧ i < 22 then (s.talk[i - 14]'(by omega)).wordsSent
  else if h : 22 ≤ i ∧ i < 26 then
    (s.listen[2 * (i - 22)]'(by omega)).statusHalf
      ||| ((s.listen[2 * (i - 22) + 1]'(by omega)).statusHalf <<< 16)
  else if h : 26 ≤ i ∧ i < 34 then (s.listen[i - 26]'(by omega)).wordsReceived
  else 0

/-- Word `i` of READ_MAP's copy (R64, R177). -/
def State.mapWord (s : State) (i : Nat) : Word :=
  if h : i < 32 then s.smap.entries[i].word s.selfId
  else if i = 32 then place s.smap.stamp.toNat 0
  else 0

/-- A copy replaces the whole snapshot area (R160). -/
def State.copy (s : State) (word : Nat → Word) : State :=
  s.setHpt { s.hpt with snapshot := Vector.ofFn fun i => word i.val }

/-- READ_STATUS (R158, R159): boundary work that is under way is finished first, so that every block is shown as this
boundary leaves it (DESIGN CHOICE, log entry 5). -/
def State.readStatus (s : State) : State :=
  let s := s.finishBoundary
  s.copy s.statusWord

/-- READ_MAP (R64). -/
def State.readMap (s : State) : State :=
  s.copy s.mapWord

/-! ## Resets -/

/-- Power-on reset (R38): every block at its power-on values; the level of RST_N is not the part's to change (DEDUCED,
log entry 20). -/
def State.powerOn (s : State) : State :=
  { State.reset with rstHeld := s.rstHeld, pending := s.pending }

/-- RST_N is asserted (R39, R147): power-on values, but POWER_UP stays and the Memory Port absorbs what is
outstanding. -/
def State.pinReset (s : State) : State :=
  { State.reset with
    hpt := { Hpt.powerOn with flags := s.hpt.flags.afterReset }
    mpt := s.mpt.absorbAll
    rstHeld := true
    pending := s.pending }

/-- The one record RESET leaves (R171). -/
def resetDoneRecord : EventRecord := event .resetDone

/-- The RESET command (R40, R147, R156, R171). -/
def State.commandReset (s : State) : State :=
  { State.reset with
    stc := { Stc.powerOn with state := if s.stc.start.isSome then .ready else .off, start := s.stc.start }
    lif := s.lif.stopped
    hpt := { Hpt.powerOn with flags := s.hpt.flags.afterReset }
    mpt := s.mpt.absorbAll
    evq := { Evq.clear with queue := [resetDoneRecord] }
    rstHeld := s.rstHeld
    pending := s.pending }

/-! ## Commands (R151, R152) -/

/-- An immediate command: its result is placed in the same event (R151). -/
def answered (code : BitVec 8) (o : ResultCode × State) : State :=
  o.2.answer o.1 code

/-- A code is taken as a command (R151, R175): every value that names none is answered BAD_PARAM. -/
def State.takeCommand (s : State) (code : BitVec 8) : State :=
  match code.toNat with
  | 1 => answered code s.startCommand
  | 2 => answered code s.joinCommand
  | 3 => answered code s.leaveCommand
  | 4 => s.commandReset
  | 5 => answered code s.openTalkCommand
  | 6 => answered code s.openListenCommand
  | 7 => s.closeCommand code
  | 8 => s.resumeCommand code
  | 9 => answered code s.claimCommand
  | 10 => answered code s.releaseCommand
  | 11 => answered code (.ok, s.readStatus)
  | 12 => answered code (.ok, s.readMap)
  | _ => s.answer .badParam code

/-- A host write to the code word (R151, R156, R176). RESET is taken in every mailbox state; any other code written
while the mailbox is BUSY is lost (DEDUCED for the code word, log entry 8). -/
def State.codeWrite (s : State) (code : BitVec 8) : State :=
  if s.rstHeld then s
  else if code = 4 then s.commandReset
  else
    let s := s.setHpt { s.hpt with code }
    match s.hpt.mailbox with
    | .busy _ => s.setFlags { s.hpt.flags with commandLost := true }
    | .idle | .done .. => s.takeCommand code

/-! ## Popping (R169, R170) -/

/-- The oldest record leaves for the head words; if records have been dropped, EVENTS_LOST takes the freed place
(R169, R170). -/
def State.popRecord (s : State) : State :=
  if s.rstHeld then s
  else
    match s.evq.queue with
    | [] => s.setEvq { s.evq with head := .nothing }
    | r :: rest =>
      if s.evq.dropped = 0 then s.setEvq { s.evq with queue := rest, head := r }
      else
        let lost := { event .eventsLost s.evq.dropped with stamp := s.stamp }
        s.setEvq { queue := rest ++ [lost], dropped := 0, head := r }

/-! ## The register window (R175, R176) -/

/-- The LINK word (R164, R175). -/
def State.linkWord (s : State) : Word :=
  place s.stc.state.code 0 ||| place s.stc.band.code 8

/-- The FI a Fill index word shows (R157). -/
def State.fillIndex (s : State) (c : ChannelId) : RingIndex :=
  match splitChannel c with
  | .inl k => s.talk[k].ring.fi
  | .inr k => s.listen[k].ring.fi

/-- What a host read of window word `index` (offset / 4) returns (R175, R176). For the pop word it is the head word of
the record the pop removes (R169). -/
def State.windowRead (s : State) (index : BitVec 7) : Word :=
  let i := index.toNat
  if i = 0 then Config.idWord
  else if i = 1 then s.linkWord
  else if i = 2 then s.hpt.flags.word
  else if i = 3 then s.hpt.code.setWidth 32
  else if h : 4 ≤ i ∧ i < 8 then s.hpt.params[i - 4]'(by omega)
  else if i = 8 then s.hpt.mailbox.word
  else if h : 9 ≤ i ∧ i < 13 then s.evq.head.headWord ⟨i - 9, by omega⟩
  else if i = 13 then s.popRecord.evq.head.head0
  else if h : 14 ≤ i ∧ i < 30 then place (s.fillIndex ⟨i - 14, by omega⟩).val 0
  else if h : 30 ≤ i ∧ i < 70 then s.hpt.snapshot[i - 30]'(by omega)
  else 0

/-- A host write to window word `index` (R176): ignored for a read-only or unused word, and while RST_N is held. -/
def State.windowWrite (s : State) (index : BitVec 7) (value : Word) : State :=
  let i := index.toNat
  if s.rstHeld then s
  else if i = 2 then s.setFlags (s.hpt.flags.clearedBy value)
  else if i = 3 then s.codeWrite (value.setWidth 8)
  else if h : 4 ≤ i ∧ i < 8 then
    s.setHpt { s.hpt with params := s.hpt.params.set (i - 4) value (by omega) }
  else if h : 14 ≤ i ∧ i < 30 then s.fillWrite ⟨i - 14, by omega⟩ value
  else s

/-! ## Pins (section 11.4) -/

/-- LKOE: the transmitter is enabled while LIF drives a marker, a message or a burst (section 11.4). -/
def State.lkoe (s : State) : Bool :=
  match s.lif.activity with
  | .marker _ | .sending .. => true
  | .window sent => sent.isSome
  | .idle | .receiving _ => false

end Sys2Proof.Machine
end

