-- ==== Sys2Proof/Machine/HostCommands.lean ====
section
/-! DEFINITION. The commands of the host and of the reset pins: mailbox codes (R151, R152, R175), writes and reads of
the register window (R176), the resets (R38 to R40). -/

namespace Sys2Proof.Machine

/-- START (R23). -/
def execStart (s : State) : Host.Outcome State Fault Refusal := .next (s.codeWrite 1)

/-- JOIN (R25). -/
def execJoin (s : State) : Host.Outcome State Fault Refusal := .next (s.codeWrite 2)

/-- LEAVE (R27, R28, R34). -/
def execLeave (s : State) : Host.Outcome State Fault Refusal := .next (s.codeWrite 3)

/-- RESET (R40, R156). -/
def execReset (s : State) : Host.Outcome State Fault Refusal := .next (s.codeWrite 4)

/-- OPEN_TALK (R107). -/
def execOpenTalk (s : State) : Host.Outcome State Fault Refusal := .next (s.codeWrite 5)

/-- OPEN_LISTEN (R124). -/
def execOpenListen (s : State) : Host.Outcome State Fault Refusal := .next (s.codeWrite 6)

/-- CLOSE (R119, R137, R154). -/
def execClose (s : State) : Host.Outcome State Fault Refusal := .next (s.codeWrite 7)

/-- RESUME (R103, R154). -/
def execResume (s : State) : Host.Outcome State Fault Refusal := .next (s.codeWrite 8)

/-- CLAIM (R67). -/
def execClaim (s : State) : Host.Outcome State Fault Refusal := .next (s.codeWrite 9)

/-- RELEASE (R68). -/
def execRelease (s : State) : Host.Outcome State Fault Refusal := .next (s.codeWrite 10)

/-- READ_STATUS (R158, R159). -/
def execReadStatus (s : State) : Host.Outcome State Fault Refusal := .next (s.codeWrite 11)

/-- READ_MAP (R64). -/
def execReadMap (s : State) : Host.Outcome State Fault Refusal := .next (s.codeWrite 12)

/-- A code that names no command (R151, R175) (DESIGN CHOICE for a code that names one, log entry 9). -/
def execUnknownCommand (code : BitVec 8) (s : State) : Host.Outcome State Fault Refusal :=
  .next (s.codeWrite code)

/-- A code written while the mailbox is BUSY (R151) (DESIGN CHOICE with the mailbox free, log entry 9). -/
def execLostCommandWrite (code : BitVec 8) (s : State) : Host.Outcome State Fault Refusal :=
  .next (s.codeWrite code)

/-- The window word of a channel's Fill index (R175). -/
def fillWord (c : ChannelId) : BitVec 7 := BitVec.ofNat 7 (14 + c.val)

/-- A Fill index write (R90, R157). -/
def execFillIndexWrite (channel : ChannelId) (value : Word) (s : State) : Host.Outcome State Fault Refusal :=
  .next (s.windowWrite (fillWord channel) value)

/-- A write to the flag word (R161). -/
def execFlagWrite (value : Word) (s : State) : Host.Outcome State Fault Refusal :=
  .next (s.windowWrite 2 value)

/-- A read of the pop word (R169). -/
def execPop (s : State) : Host.Outcome State Fault Refusal := .next s.popRecord

/-- A write to a parameter, read-only or unused word (R176) (DESIGN CHOICE for a word that is not, log entry 9). -/
def execWindowWriteIgnored (index : BitVec 7) (value : Word) (s : State) : Host.Outcome State Fault Refusal :=
  .next (s.windowWrite index value)

/-- Supply comes up (R38). -/
def execPowerOnReset (s : State) : Host.Outcome State Fault Refusal := .next s.powerOn

/-- RST_N is asserted (R39). -/
def execRstNAssert (s : State) : Host.Outcome State Fault Refusal := .next s.pinReset

/-- RST_N is released (R39): the part keeps the values it was held at. -/
def execRstNRelease (s : State) : Host.Outcome State Fault Refusal := .next (s.setRstHeld false)

end Sys2Proof.Machine
end

