-- ==== Sys2Proof/Machine/LinkEvents.lean ====
section
/-! DEFINITION. The commands of the line and of the Round Timer's clock (chapter 1). A marker, a time of E and the
opening of the claim window find the work of the last boundary done (R62). -/

namespace Sys2Proof.Machine

/-- E reaches P (R5). -/
def execPeriodReached (lineIdle : Bool) (s : State) : Host.Outcome State Fault Refusal :=
  .next (s.finishBoundary.reachPeriod lineIdle)

/-- The line is idle while the station waits to send its marker (R5). -/
def execLineIdleMarker (time : Nat) (s : State) : Host.Outcome State Fault Refusal :=
  .next (s.finishBoundary.lineIdleMarker time)

/-- The own marker has gone out whole (R6). -/
def execOwnMarkerSent (s : State) : Host.Outcome State Fault Refusal :=
  .next s.finishBoundary.markerSent

/-- A heard marker (R6, R7). -/
def execHeardMarker (began : Nat) (bits : BitVec 24) (s : State) : Host.Outcome State Fault Refusal :=
  .next (s.finishBoundary.heardMarker began bits)

/-- E reaches 2P (R10). -/
def State.stuckTimeout (s : State) : State :=
  if s.inLink then s.lineStuck else s

/-- E reaches 2P (R10). -/
def execLineStuckTimeout (s : State) : Host.Outcome State Fault Refusal :=
  .next s.finishBoundary.stuckTimeout

/-- The claim window opens (R11, R70). -/
def execClaimWindowOpen (s : State) : Host.Outcome State Fault Refusal :=
  .next s.finishBoundary.openWindow

/-- The claim window has been read (R12, R13, R73). -/
def execClaimWindowResult (line : BitVec 28) (s : State) : Host.Outcome State Fault Refusal :=
  .next (s.endWindow line)

/-- A data slot opens (R14, R16, R111). -/
def execSlotOpen (startRecessive : Bool) (s : State) : Host.Outcome State Fault Refusal :=
  .next (s.openSlot startRecessive)

/-- The own burst has been read back (R15, R112). -/
def execBurstSent (readback : LineBurst) (s : State) : Host.Outcome State Fault Refusal :=
  .next (s.endOwnBurst readback)

/-- A received burst ends (R16, R127). -/
def execBurstReceived (burst : LineBurst) (s : State) : Host.Outcome State Fault Refusal :=
  .next (s.endHeardBurst burst)

/-- Recognition of a marker ends (R2). -/
def execMarkerRecognitionEnded (began matched : Nat) (s : State) : Host.Outcome State Fault Refusal :=
  .next (s.finishBoundary.recognitionEnded began matched)

end Sys2Proof.Machine
end

