-- ==== Sys2Proof/Machine/Dispatch.lean ====
section
/-! DEFINITION. The meaning of every command, one arm per row of spec/opcode_table.json. -/

namespace Sys2Proof.Machine

def exec (i : Instr) (s : State) : Host.Outcome State Fault Refusal :=
  match i with
  | .start => Sys2Proof.Machine.execStart s
  | .join => Sys2Proof.Machine.execJoin s
  | .leave => Sys2Proof.Machine.execLeave s
  | .reset => Sys2Proof.Machine.execReset s
  | .openTalk => Sys2Proof.Machine.execOpenTalk s
  | .openListen => Sys2Proof.Machine.execOpenListen s
  | .close => Sys2Proof.Machine.execClose s
  | .resume => Sys2Proof.Machine.execResume s
  | .claim => Sys2Proof.Machine.execClaim s
  | .release => Sys2Proof.Machine.execRelease s
  | .readStatus => Sys2Proof.Machine.execReadStatus s
  | .readMap => Sys2Proof.Machine.execReadMap s
  | .unknownCommand code => Sys2Proof.Machine.execUnknownCommand code s
  | .lostCommandWrite code => Sys2Proof.Machine.execLostCommandWrite code s
  | .fillIndexWrite channel value => Sys2Proof.Machine.execFillIndexWrite channel value s
  | .flagWrite value => Sys2Proof.Machine.execFlagWrite value s
  | .pop => Sys2Proof.Machine.execPop s
  | .windowWriteIgnored index value => Sys2Proof.Machine.execWindowWriteIgnored index value s
  | .powerOnReset => Sys2Proof.Machine.execPowerOnReset s
  | .rstNAssert => Sys2Proof.Machine.execRstNAssert s
  | .rstNRelease => Sys2Proof.Machine.execRstNRelease s
  | .periodReached lineIdle => Sys2Proof.Machine.execPeriodReached lineIdle s
  | .lineIdleMarker time => Sys2Proof.Machine.execLineIdleMarker time s
  | .ownMarkerSent => Sys2Proof.Machine.execOwnMarkerSent s
  | .heardMarker began bits => Sys2Proof.Machine.execHeardMarker began bits s
  | .lineStuckTimeout => Sys2Proof.Machine.execLineStuckTimeout s
  | .faultEntry => Sys2Proof.Machine.execFaultEntry s
  | .claimWindowOpen => Sys2Proof.Machine.execClaimWindowOpen s
  | .claimWindowResult line => Sys2Proof.Machine.execClaimWindowResult line s
  | .slotOpen startRecessive => Sys2Proof.Machine.execSlotOpen startRecessive s
  | .burstSent readback => Sys2Proof.Machine.execBurstSent readback s
  | .burstReceived burst => Sys2Proof.Machine.execBurstReceived burst s
  | .slotMapBoundaryWork => Sys2Proof.Machine.execSlotMapBoundaryWork s
  | .claimSettle => Sys2Proof.Machine.execClaimSettle s
  | .talkBoundaryWork => Sys2Proof.Machine.execTalkBoundaryWork s
  | .listenBoundaryWork => Sys2Proof.Machine.execListenBoundaryWork s
  | .stationBoundaryWork => Sys2Proof.Machine.execStationBoundaryWork s
  | .arbiterGrant => Sys2Proof.Machine.execArbiterGrant s
  | .memoryResponse error data => Sys2Proof.Machine.execMemoryResponse error data s
  | .markerRecognitionEnded began matched => Sys2Proof.Machine.execMarkerRecognitionEnded began matched s

end Sys2Proof.Machine
end

