-- ==== Sys2Proof/Safety.lean ====
section
/-! DEFINITION. The bounds and correspondences the manual gives the state, in the terms the statements use, and the two
plain conditions on a state that the commands' rules ask for. -/

namespace Sys2Proof.Machine

/-! ## When a command is taken -/

/-- The mailbox is BUSY (R150). -/
def Mailbox.isBusy : Mailbox → Bool
  | .busy _ => true
  | .idle | .done .. => false

/-- A code write is taken as a command: RST_N is not held (R176) and the mailbox is not BUSY (R151). -/
def State.takes (s : State) : Prop :=
  s.rstHeld = false ∧ s.hpt.mailbox.isBusy = false

/-- The work of the last boundary is done and no fault cause waits (R8, R31). -/
def State.settled (s : State) : Prop :=
  s.boundary = .nothing ∧ s.stc.report = none

/-- A command is answered: the mailbox shows DONE with the result and the code (R151, R154), and nothing else of the
Host Port changes. -/
def State.answeredWith (s : State) (result : ResultCode) (code : BitVec 8) : State :=
  { s with hpt := { s.hpt with code := code, mailbox := .done result code } }

/-! ## Bounds of the map (R41) -/

/-- An entry's counts are in the bounds of R41. -/
def Entry.bounded : Entry → Prop
  | .free => True
  | .own _ _ mismatches => mismatches ≤ 1
  | .peer _ _ silent _ => silent ≤ 7
  | .quarantine remaining => 1 ≤ remaining ∧ remaining ≤ 8

/-- Every entry is in its bounds (R41). -/
def State.mapBounded (s : State) : Prop :=
  ∀ i : Slot, s.smap.entries[i].bounded

/-- Every entry at or above N is FREE (R41). -/
def State.unusedFree (s : State) : Prop :=
  ∀ i : Slot, s.slots ≤ i.val → s.smap.entries[i] = .free

/-! ## Bounds of queues and lists -/

/-- The event queue never holds more than 32 records (R167). -/
def State.eventsBounded (s : State) : Prop :=
  s.evq.queue.length ≤ 32

/-- At most 4 requests are outstanding (R141), and the absorb count never exceeds their number (R148). -/
def State.portBounded (s : State) : Prop :=
  s.mpt.outstanding.length ≤ 4 ∧ s.mpt.absorb ≤ s.mpt.outstanding.length

/-- The claim queue holds at most one request for any talk channel (R65). -/
def State.claimsDistinct (s : State) : Prop :=
  (s.cle.queue.map ClaimRequest.channel).Nodup

/-- A map entry is OWNED by the station itself (R41). -/
def Entry.isOwn : Entry → Bool
  | .own .. => true
  | .free | .peer .. | .quarantine _ => false

/-- An observation of a slot in which the station transmitted (R43). -/
def Observation.isSent : Observation → Bool
  | .sentMatch _ | .sentMismatch _ => true
  | .silent | .bad | .valid .. => false

/-- The correspondence of the map and the bindings. In a link state an entry is OWNED by the station itself exactly where
a talk channel is bound to its slot, and no two channels are bound to one slot (R42). Off the link no channel is bound
(R30, R32), and a CLOSED channel never is (R120). The other clauses say when the station transmits: in its own slots
only, and not while SMAP's work for the boundary still waits; and off the link no boundary work waits (R4, R8). -/
def State.bindingsAgree (s : State) : Prop :=
  (s.inLink = true → ∀ i : Slot, s.smap.entries[i].isOwn = true ↔ ∃ k : TalkId, s.talk[k].bound = some i) ∧
  (∀ (j k : TalkId) (i : Slot), s.talk[j].bound = some i → s.talk[k].bound = some i → j = k) ∧
  (s.inLink = false → ∀ k : TalkId, s.talk[k].bound = none) ∧
  (∀ k : TalkId, s.talk[k].state = .closed → s.talk[k].bound = none) ∧
  (s.inLink = true → ∀ (i : Slot) (o : Observation), s.smap.observations[i] = some o → o.isSent = true →
    s.smap.entries[i].isOwn = true) ∧
  (∀ (i : Slot) (b : Burst), s.lif.activity = .sending i b →
    s.inLink = true ∧ s.smap.entries[i].isOwn = true ∧ s.boundary.slotMap = false) ∧
  (1 ≤ s.lif.opened → s.boundary.slotMap = false) ∧
  (s.inLink = false → s.boundary = .nothing)

/-- No talk channel's staging holds more than 16 words, the words of the reads that are to join it counted in (R105,
R108). -/
def State.stagingBounded (s : State) : Prop :=
  ∀ k : TalkId, s.talk[k].staging.length + s.talk[k].reading ≤ 16

/-- No listen channel's deposit holds more than 16 words (R122). -/
def State.depositsBounded (s : State) : Prop :=
  ∀ k : ListenId, s.listen[k].inWrite.length + s.listen[k].waiting.length ≤ 16

/-- The ring law of R88 and R93: the count is never smaller than the number of taken descriptors, an ahead is taken
only while a current is HELD, and at most one fetch that is not stale is outstanding, for the taken descriptor in
FETCHING. -/
def ChannelCore.lawful (c : ChannelCore) : Prop :=
  c.ring.taken ≤ c.ring.count ∧
  (c.ring.ahead.isSome = true → (heldOf c.ring.current).isSome = true) ∧
  (c.requests.filter fun e => e.purpose == .descFetch && !e.stale).length ≤ 1 ∧
  ∀ e ∈ c.requests, e.purpose = .descFetch → e.stale = false →
    (e.index = c.ring.ci ∧ c.ring.current = some .fetching) ∨
    (e.index = c.ring.ci + 1 ∧ c.ring.ahead = some .fetching)

/-- A talk channel's ring is lawful, and CLOSED or HALTED it holds no taken descriptor (R87, R102). -/
def Talk.lawful (t : Talk) : Prop :=
  t.toChannelCore.lawful ∧ (t.state = .closed ∨ t.state = .halted → t.ring.current = none)

/-- A listen channel's ring is lawful, and CLOSED or HALTED it holds no taken descriptor (R87, R102). -/
def Listen.lawful (l : Listen) : Prop :=
  l.toChannelCore.lawful ∧ (l.state = .closed ∨ l.state = .halted → l.ring.current = none)

/-- Every channel's ring is lawful (R87, R88, R93, R102). -/
def State.ringsLawful (s : State) : Prop :=
  (∀ k : TalkId, s.talk[k].lawful) ∧ (∀ k : ListenId, s.listen[k].lawful)

/-! ## The station (R22, R23) -/

/-- The fault cause is present in FAULT and absent in every other state (R22). -/
def State.causeOnlyInFault (s : State) : Prop :=
  s.stc.cause.isSome = true ↔ s.stc.state = .fault

/-- The station holds no START record exactly in OFF (R22 to R24, R40). -/
def State.recordExceptInOff (s : State) : Prop :=
  s.stc.start = none ↔ s.stc.state = .off

/-- The ranges of the START record (R23). -/
def StartRecord.inRange (r : StartRecord) : Prop :=
  16 + 16 * r.shape.slots ≤ r.period ∧ r.period ≤ 4000 ∧ 1 ≤ r.retryLimit ∧ r.retryLimit ≤ 64

/-- A START record held is in range (R23, R24). -/
def State.recordInRange (s : State) : Prop :=
  ∀ r, s.stc.start = some r → r.inRange

/-- The counts of STC, LIF and EVQ are in their ranges (R18, R22, R167); in LISTENING the learn count has not reached
8 (R26). -/
def State.countsBounded (s : State) : Prop :=
  s.stc.learn ≤ 8 ∧ (s.stc.state = .listening → s.stc.learn < 8) ∧ s.stc.windowRounds < 64 ∧
  s.stc.windowErrors ≤ 255 ∧ s.lif.markerEarly ≤ 65535 ∧ s.lif.claimCheck ≤ 65535 ∧ s.lif.burstCheck ≤ 65535 ∧
  s.evq.dropped ≤ 65535

/-! ## What two rules bring about, as relations between the state before and after -/

/-- The Talk Engine and the Listen Engine after the station has left the link (R30, R32): no channel is bound, RUNNING
and STARVED channels are ARMED and HALTED ones stay HALTED; RECEIVING and STARVED listen channels are WAITING. -/
def State.channelsUnbound (s t : State) : Prop :=
  (∀ k : TalkId, t.talk[k].bound = none ∧
    (s.talk[k].bound.isSome = true → s.talk[k].heldHalts = [] → s.talk[k].closeTaken = false →
      s.talk[k].resumeWaits = false →
      (s.talk[k].state = .running ∨ s.talk[k].state = .starved → t.talk[k].state = .armed) ∧
      (s.talk[k].state = .halted → t.talk[k].state = .halted))) ∧
  (∀ k : ListenId, t.listen[k].bound = none ∧
    (s.listen[k].close ≠ .taken → s.listen[k].resumeWaits = false →
      (s.listen[k].state = .receiving ∨ s.listen[k].state = .starved → t.listen[k].state = .waiting) ∧
      (s.listen[k].state = .halted → t.listen[k].state = .halted)))

/-- The Round Timer and the Line Interface after the station has left the link, and what no change of station state
touches (R1, R4, R17, R18). -/
def State.linkStopped (s t : State) : Prop :=
  t.rtm = { s.rtm with elapsed := none, lastMarker := none, strike := false, mismatchSeen := false } ∧
  t.lif = { s.lif with activity := .idle, opened := 0, lastDominant := 0, watchesFrom := 0 } ∧
  t.boundary = .nothing ∧
  t.mpt.outstanding = s.mpt.outstanding ∧ t.mpt.absorb = s.mpt.absorb ∧ t.mpt.pointer = s.mpt.pointer ∧
  t.hpt.code = s.hpt.code ∧ t.hpt.params = s.hpt.params ∧ t.hpt.snapshot = s.hpt.snapshot ∧
  t.rstHeld = s.rstHeld ∧ t.pending = s.pending

/-- The WITHDRAWN records of the fault notice at the Claim Engine (R81, R83): where the event queue has places for them
all, one for each request in queue order, with cause FAULT, the request's channel and tag, and its slot, or for a CLAIM
for ANY the sent slot; none where the mask does not choose them (R166). -/
def State.withdrawsAll (s t : State) : Prop :=
  s.evq.queue.length + s.cle.queue.length < 32 →
    ((t.evq.queue.drop s.evq.queue.length).filter fun r => r.kind == .withdrawn) =
      if s.records .withdrawn = true then
        s.cle.queue.map fun r =>
          { kind := .withdrawn, channel := some (talkChannel r.channel), slot := r.slot.orElse fun _ => r.sentSlot,
            station := none, tag := some r.tag, detail := 5, stamp := s.stamp }
      else []

/-- Entry into FAULT (R31, R32, R81): the cause, the frozen map, the claim queue ended with its records, the stopped link
and the channels unbound. That the records of the claim queue get their places before those of the channels is the model's
(log entry 10). -/
def State.entersFault (s t : State) (cause : FaultCause) : Prop :=
  t.stc = { s.stc with
    state := .fault, cause := some cause, leavePending := false, leaveMarks := Vector.replicate 8 false,
    report := none } ∧
  t.smap = { s.smap with
    observations := Vector.replicate 32 none, message := none, part := .notSent, abandon := [] } ∧
  t.cle = { queue := [], onLine := none, lineEnds := none } ∧ s.withdrawsAll t ∧ s.linkStopped t ∧
  s.channelsUnbound t

/-- Acceptance of a marker whose first bit was at E = `began` and whose last bit has just been read (R7, R8): E runs from
the first bit, the counter advances, slots not opened are SILENT, and the boundary waits at SMAP and STC. -/
def State.opensRound (s t : State) (began : Nat) : Prop :=
  t.rtm = {
    elapsed := some 24, lastMarker := some (s.rtm.lastMarker.getD 0 + began), counter := s.rtm.counter + 1,
    strike := s.rtm.strike && s.rtm.mismatchSeen, mismatchSeen := false } ∧
  t.lif = { s.lif with
    activity := .idle, opened := 0, lastDominant := t.lif.lastDominant, watchesFrom := 24 } ∧
  t.boundary = { slotMap := true, claims := false, talk := false, listen := false, station := true } ∧
  t.smap = { s.smap with observations := t.smap.observations } ∧
  (∀ i : Slot, t.smap.observations[i] =
    if s.rtm.lastMarker.isSome = true ∧ i.val < s.slots ∧ s.smap.observations[i] = none then some .silent
    else s.smap.observations[i]) ∧
  t.stc = s.stc ∧ t.cle = s.cle ∧ t.talk = s.talk ∧ t.listen = s.listen ∧ t.mpt = s.mpt ∧ t.hpt = s.hpt ∧
  t.evq = s.evq ∧ t.rstHeld = s.rstHeld ∧ t.pending = s.pending

/-- A burst of a bound channel is on the line in the channel's slot, and no other channel is bound to that slot (R14,
R42, R111). -/
def State.burstOut (s : State) (slot : Slot) (sent : Burst) (k : TalkId) (words : List StagedWord) : Prop :=
  s.lif.activity = .sending slot sent ∧ s.now ≤ 160 + 320 * slot.val + (39 + 32 * sent.words.length) ∧
  sent.words.length ≤ 8 ∧ s.talk[k].bound = some slot ∧ (∀ j : TalkId, j ≠ k → s.talk[j].bound ≠ some slot) ∧
  s.talk[k].onLine = some words

/-- An element of the round opens at a time: the claim window 4 µs after the accepted marker's first bit, slot i 8 + 16i µs
after it (R3). -/
def State.opensAt (s : State) (time : Nat) : Prop :=
  s.rtm.lastMarker.isSome = true ∧ (time = 80 ∨ ∃ i, i < s.slots ∧ time = 160 + 320 * i)

/-! ## Event records -/

/-- A record that an event makes stands in the queue after it, if its class is recorded and there is room for it and for
two records that the same event may make before it (R165 to R167). -/
def State.reports (s t : State) (r : EventRecord) : Prop :=
  s.records r.kind = true → s.evq.queue.length ≤ 29 → { r with stamp := s.stamp } ∈ t.evq.queue

/-- The CHANNEL_HALTED record of a channel (R102). -/
def haltRecord (c : ChannelId) (detail : Nat) : EventRecord :=
  { kind := .channelHalted, channel := some c, slot := none, station := none, tag := none,
    detail := BitVec.ofNat 16 detail, stamp := 0 }

/-! ## Halts and the end of a listen CLOSE -/

/-- A talk channel has entered HALTED (R102, R118): nothing staged, taken or on the line, every fetch and data request
stale, no halt held; the binding is kept. -/
def State.talkHalts (s t : State) (k : TalkId) (cause : HaltCause) : Prop :=
  t.talk[k].state = .halted ∧ t.talk[k].haltCause = some cause ∧ t.talk[k].staging = [] ∧
  t.talk[k].readPoint = none ∧ t.talk[k].onLine = none ∧ t.talk[k].heldHalts = [] ∧
  t.talk[k].bound = s.talk[k].bound ∧ t.talk[k].ring.current = none ∧ t.talk[k].ring.ahead = none ∧
  t.talk[k].ring.position = 0 ∧ ∀ x ∈ t.talk[k].requests, x.purpose ≠ .writeback → x.stale = true

/-- A data write that is not stale is among the entries (R138). -/
def writesLeft (es : List RequestEntry) : Prop :=
  ∃ x ∈ es, x.purpose = .dataWrite ∧ x.stale = false

/-- A listen channel's CLOSE has completed (R104, R138): CLOSED, nothing taken, bound or in the deposit, every fetch and
data request stale, and the command in progress answered OK (R154). -/
def State.listenCloses (s t : State) (k : ListenId) : Prop :=
  t.listen[k].state = .closed ∧ t.listen[k].tag = none ∧ t.listen[k].bound = none ∧ t.listen[k].expected = none ∧
  t.listen[k].lastSequence = none ∧ t.listen[k].inWrite = [] ∧ t.listen[k].waiting = [] ∧
  t.listen[k].writePoint = none ∧ t.listen[k].ring.current = none ∧ t.listen[k].ring.ahead = none ∧
  t.listen[k].ring.position = 0 ∧ t.listen[k].haltCause = none ∧ t.listen[k].close = .none ∧
  (∀ x ∈ t.listen[k].requests, x.purpose ≠ .writeback → x.stale = true) ∧
  ∀ code, s.hpt.mailbox = .busy code → t.hpt.mailbox = .done .ok code

/-- A listen channel has entered HALTED (R102, R134, R135): the deposit, the sequences and the drop episode are gone,
nothing is taken, every fetch and data request is stale, the binding is kept; a CLOSE that had been applied completes, for
no write is left (R138). -/
def State.listenHalts (s t : State) (k : ListenId) (cause : HaltCause) : Prop :=
  t.listen[k].episode = none ∧
  (s.listen[k].close = .applied → s.listenCloses t k) ∧
  (s.listen[k].close ≠ .applied →
    t.listen[k].state = .halted ∧ t.listen[k].haltCause = some cause ∧ t.listen[k].bound = s.listen[k].bound ∧
    t.listen[k].expected = none ∧ t.listen[k].lastSequence = none ∧ t.listen[k].inWrite = [] ∧
    t.listen[k].waiting = [] ∧ t.listen[k].writePoint = none ∧ t.listen[k].ring.current = none ∧
    t.listen[k].ring.ahead = none ∧ t.listen[k].ring.position = 0 ∧ t.listen[k].close = s.listen[k].close ∧
    (∀ x ∈ t.listen[k].requests, x.purpose ≠ .writeback → x.stale = true) ∧
    t.hpt.mailbox = s.hpt.mailbox)

/-! ## Fetches and data requests (R93, R98, R108, R131) -/

/-- A talk channel may make a fetch or a data read: it walks its ring, and its list holds fewer than 16 entries (R93,
R98, R108). -/
def Talk.mayAsk (t : Talk) : Prop :=
  (t.state = .armed ∨ t.state = .running ∨ t.state = .starved) ∧ t.requests.length < 16

/-- A listen channel may make a fetch or a data write: it is open and not HALTED, and its list holds fewer than 16
entries (R93, R98, R131). -/
def Listen.mayAsk (l : Listen) : Prop :=
  (l.state = .waiting ∨ l.state = .receiving ∨ l.state = .starved) ∧ l.requests.length < 16

/-- The current's fetch is called for: no current is held and the ring has a valid descriptor not taken (R93), or the
current is in FETCHING and its fetch has become stale (R116). -/
def ChannelCore.callsCurrent (c : ChannelCore) : Prop :=
  (c.ring.current = none ∧ c.ring.taken < c.ring.count) ∨
  (c.ring.current = some .fetching ∧ ∀ e ∈ c.requests, e.purpose = .descFetch → e.stale = true)

/-- An index and a descriptor are those of the current, or of an ahead, HELD without a failure. -/
def Ring.holds (r : Ring) (d : Descriptor) (index : RingIndex) : Prop :=
  (index = r.ci ∧ r.current = some (.held d)) ∨ (index = r.ci + 1 ∧ r.ahead = some (.held d))

/-- A data read of `n` words of a buffer is called for (R108): the read point names a word of it, `n` is the smaller of
8 and the words to its end, and they fit in staging beside the words staged and the words of the reads that are to
come. -/
def Talk.callsRead (t : Talk) (d : Descriptor) (index : RingIndex) (offset n : Nat) : Prop :=
  t.readPoint = some (index, offset) ∧ t.ring.holds d index ∧ offset < d.length ∧ n = min 8 (d.length - offset) ∧
  t.staging.length + ((t.requests.filter fun e => e.purpose == .dataRead && !e.stale).map RequestEntry.words).sum + n ≤
    16

/-- The ahead's fetch is called for (R93): the current is HELD, no read of it has failed (R101), there is no ahead but a
second valid descriptor, and at most 16 words of the current have no read made for them. -/
def Talk.callsAhead (t : Talk) : Prop :=
  ∃ d, t.ring.current = some (.held d) ∧ t.ring.ahead = none ∧ 1 < t.ring.count ∧ HaltReason.dataFailed ∉ t.heldHalts ∧
    ∀ offset, t.readPoint = some (t.ring.ci, offset) → d.length ≤ offset + 16

/-- A data write of `n` words into a buffer is called for (R131): the write point names a word of it, and `n`, not 0, is
the smallest of 8, the waiting words and the words to its end. -/
def Listen.callsWrite (l : Listen) (d : Descriptor) (index : RingIndex) (offset n : Nat) : Prop :=
  l.writePoint = some (index, offset) ∧ l.ring.holds d index ∧ offset < d.length ∧ l.waiting ≠ [] ∧
  n = min 8 (min l.waiting.length (d.length - offset))

/-- The ahead's fetch is called for (R93, R131): the current is HELD, there is no ahead but a second valid descriptor,
and at most 16 words of the current are covered neither by words done nor by words in the deposit. -/
def Listen.callsAhead (l : Listen) : Prop :=
  ∃ d, l.ring.current = some (.held d) ∧ l.ring.ahead = none ∧ 1 < l.ring.count ∧
    d.length ≤ l.ring.position + l.inWrite.length + l.waiting.length + 16

/-- A talk channel in the state R106 gives it. -/
def Talk.due (t : Talk) : Talk :=
  { t with state :=
      if t.state = .closed ∨ t.state = .halted then t.state
      else if t.bound = none then .armed
      else if t.ring.ci ≠ t.ring.fi ∨ t.staging ≠ [] ∨ t.endWait = true then .running else .starved }

/-- A listen channel in the state R123 gives it. -/
def Listen.due (l : Listen) : Listen :=
  { l with state :=
      if l.state = .closed ∨ l.state = .halted then l.state
      else if l.bound = none then .waiting
      else if l.ring.ci ≠ l.ring.fi then .receiving else .starved }

/-- A talk channel, left as `v` by an event that has already asked for `first`, makes the requests that the rules call
for (R93, R98, R108), and they join its waiting list in that order (R140). -/
def State.talkAsks (s t : State) (k : TalkId) (first : List MemRequest) (v : Talk) : Prop :=
  ∃ u, u = Talk.pump { channel := talkChannel k, stamp := s.stamp } v ∧ t.talk[k] = u.chan ∧
    t.mpt.waiting[talkChannel k] = s.mpt.waiting[talkChannel k] ++ first ++ u.requests

/-- The same of a listen channel (R93, R98, R131, R140). -/
def State.listenAsks (s t : State) (k : ListenId) (first : List MemRequest) (v : Listen) : Prop :=
  ∃ u, u = Listen.pump { channel := listenChannel k, stamp := s.stamp } v ∧ t.listen[k] = u.chan ∧
    t.mpt.waiting[listenChannel k] = s.mpt.waiting[listenChannel k] ++ first ++ u.requests

/-- The listen channels hear the burst that LIF hands LNE, or none (R15, R16, R127): each one's outcome is that of
`Listen.take`, its requests join its waiting list, and the records, behind those of `made`, go to the event queue in
channel order, which is the model's (log entry 10). -/
def State.hears (s t : State) (slot : Slot) (heard : Option Burst) (made : List EventRecord) : Prop :=
  (heard = none → t.listen = s.listen ∧ t.evq = (s.postAll made).evq ∧
    ∀ k : ListenId, t.mpt.waiting[listenChannel k] = s.mpt.waiting[listenChannel k]) ∧
  ∀ b, heard = some b → ∀ o : ListenId → Out Listen,
    (∀ k, o k = Listen.take { channel := listenChannel k, stamp := s.stamp } slot b s.listen[k]) →
    (∀ k : ListenId, t.listen[k] = (o k).chan ∧
      t.mpt.waiting[listenChannel k] = s.mpt.waiting[listenChannel k] ++ (o k).requests) ∧
    t.evq = (s.postAll (made ++ (List.finRange 8).flatMap fun k => (o k).records)).evq

/-! ## The claim queue's two walks -/

/-- The walk at the opening of the claim window passes a request over and leaves it as it is (R70, R71, R78). -/
def State.passesOver (s : State) (r : ClaimRequest) : Prop :=
  r.phase = .sentWon ∨ (r.kind = .claim ∧ (s.stc.state = .leaving ∨ s.stc.band = .degraded))

/-- The walk may send a request with a slot: a WAITING RELEASE with its own; in JOINED with the band GOOD a WAITING CLAIM
with its slot if that entry is FREE, one for ANY with the lowest FREE slot (R70 to R72). -/
def State.maySend (s : State) (r : ClaimRequest) (slot : Slot) : Prop :=
  r.phase = .waiting ∧
  ((r.kind = .release ∧ r.slot = some slot) ∨
    (r.kind = .claim ∧ s.stc.state = .joined ∧ s.stc.band = .good ∧ slot.val < s.slots ∧
      s.smap.entries[slot] = .free ∧
      (r.slot = some slot ∨ (r.slot = none ∧ ∀ j : Slot, j < slot → s.smap.entries[j] ≠ .free))))

/-- The walk ends a WAITING CLAIM that could be sent but for the map: REFUSED (OWNED_SEEN, with a peer's owner named) where
its slot is not FREE, NO_SLOT where ANY finds no FREE slot (R72, R83). -/
def State.endsUnsent (s : State) (r : ClaimRequest) (outcome : EventRecord) : Prop :=
  r.phase = .waiting ∧ r.kind = .claim ∧ s.stc.state = .joined ∧ s.stc.band = .good ∧
  ((∃ slot, r.slot = some slot ∧ s.smap.entries[slot] ≠ .free ∧
      outcome = { kind := .refused, channel := some (talkChannel r.channel), slot := some slot,
                  station := s.smap.entries[slot].peerOwner, tag := some r.tag, detail := 1, stamp := 0 }) ∨
    (r.slot = none ∧ (∀ j : Slot, j.val < s.slots → s.smap.entries[j] ≠ .free) ∧
      outcome = { kind := .noSlot, channel := some (talkChannel r.channel), slot := none, station := none,
                  tag := some r.tag, detail := 0, stamp := 0 }))

/-- What settling makes of a SENT-WON request (R74, R75, R83): a CLAIM is GRANTED where its sent slot is OWNED by the
station with the channel bound, WITHDRAWN (CLOSED) where that slot is in QUARANTINE, else REFUSED (CONTESTED) with a
peer's owner named; a RELEASE is RELEASED. -/
def State.settlesWon (s : State) (r : ClaimRequest) (outcome : EventRecord) : Prop :=
  r.phase = .sentWon ∧ ∃ (kind : EventKind) (slot : Option Slot) (station : Option StationId) (detail : Nat),
    outcome = { kind, channel := some (talkChannel r.channel), slot, station, tag := some r.tag,
                detail := BitVec.ofNat 16 detail, stamp := 0 } ∧
    ((r.kind = .release ∧ slot = r.slot ∧ kind = .released ∧ station = none ∧ detail = r.attempts) ∨
      (r.kind = .claim ∧ ∃ i, r.sentSlot = some i ∧ slot = some i ∧
        match s.smap.entries[i] with
        | .own .. =>
          (s.talk[r.channel].bound = some i ∧ kind = .granted ∧ station = none ∧ detail = r.attempts) ∨
            (s.talk[r.channel].bound ≠ some i ∧ kind = .refused ∧ station = none ∧ detail = 2)
        | .quarantine _ =>
          (r.slot = none ∨ r.slot = some i) ∧ kind = .withdrawn ∧ station = none ∧ detail = 3
        | .peer owner .. => kind = .refused ∧ station = some owner ∧ detail = 2
        | .free => kind = .refused ∧ station = none ∧ detail = 2))

/-- What settling makes of a WAITING request (R76): a RELEASE whose channel is no longer bound to its slot is WITHDRAWN
(SLOT_LOST); any other request stays. -/
def State.settlesWaiting (s : State) (r : ClaimRequest) (outcome : Option EventRecord) : Prop :=
  r.phase = .waiting ∧
  ((r.kind = .release ∧ s.talk[r.channel].bound ≠ r.slot ∧ ∃ slot, r.slot = some slot ∧
      outcome = some { kind := .withdrawn, channel := some (talkChannel r.channel), slot := some slot,
                       station := none, tag := some r.tag, detail := 6, stamp := 0 }) ∨
    ((r.kind = .claim ∨ s.talk[r.channel].bound = r.slot) ∧ outcome = none))

/-! ## What a command leaves alone -/

/-- The commands that come from the host's side: the register window, the supply and the reset pin (R38, R39, R175). All
others are events of the line, of the blocks and of the memory bus. -/
def fromHost : Instr → Bool
  | .start | .join | .leave | .reset | .openTalk | .openListen | .close | .resume | .claim | .release | .readStatus
  | .readMap | .unknownCommand _ | .lostCommandWrite _ | .fillIndexWrite _ _ | .flagWrite _ | .pop
  | .windowWriteIgnored _ _ | .powerOnReset | .rstNAssert | .rstNRelease => true
  | .periodReached _ | .lineIdleMarker _ | .ownMarkerSent | .heardMarker _ _ | .lineStuckTimeout | .faultEntry
  | .claimWindowOpen | .claimWindowResult _ | .slotOpen _ | .burstSent _ | .burstReceived _ | .slotMapBoundaryWork
  | .claimSettle | .talkBoundaryWork | .listenBoundaryWork | .stationBoundaryWork | .arbiterGrant
  | .memoryResponse _ _ | .markerRecognitionEnded _ _ => false

/-- What no event but the host's own changes: the code, parameter and snapshot words, POWER_UP and COMMAND_LOST, the head
words, the START record, the pin and the queue. A sticky flag that is set stays set (R161), and no record leaves the
event queue (R167). -/
def State.hostSideKept (s t : State) : Prop :=
  t.hpt.code = s.hpt.code ∧ t.hpt.params = s.hpt.params ∧ t.hpt.snapshot = s.hpt.snapshot ∧
  t.hpt.flags.powerUp = s.hpt.flags.powerUp ∧ t.hpt.flags.commandLost = s.hpt.flags.commandLost ∧
  (s.hpt.flags.shapeMismatch = true → t.hpt.flags.shapeMismatch = true) ∧
  (s.hpt.flags.lineStuck = true → t.hpt.flags.lineStuck = true) ∧
  (s.hpt.flags.eventOverflow = true → t.hpt.flags.eventOverflow = true) ∧
  t.evq.head = s.evq.head ∧ (∃ recorded, t.evq.queue = s.evq.queue ++ recorded) ∧
  t.stc.start = s.stc.start ∧ t.rstHeld = s.rstHeld ∧ t.pending = s.pending

/-- The work of one channel leaves everything outside it alone: the other channels and their waiting lists, the station,
the timer, the line, the map, and the host's words. The channel's own waiting list and the event queue grow at their
tails, a RELEASE of the channel may join the claim queue, and a CLOSE in progress may complete in the mailbox. -/
def State.onlyChannelWorked (s t : State) (c : ChannelId) : Prop :=
  t.stc = s.stc ∧ t.rtm = s.rtm ∧ t.lif = s.lif ∧ t.smap = s.smap ∧ t.boundary = s.boundary ∧
  t.rstHeld = s.rstHeld ∧ t.pending = s.pending ∧
  (∀ k : TalkId, talkChannel k ≠ c → t.talk[k] = s.talk[k]) ∧
  (∀ k : ListenId, listenChannel k ≠ c → t.listen[k] = s.listen[k]) ∧
  (t.cle = s.cle ∨ ∃ r : ClaimRequest, t.cle = { s.cle with queue := s.cle.queue ++ [r] } ∧ r.kind = .release ∧
    talkChannel r.channel = c ∧ r.attempts = 0 ∧ r.phase = .waiting) ∧
  (∀ d : ChannelId, d ≠ c → t.mpt.waiting[d] = s.mpt.waiting[d]) ∧
  (∃ made, t.mpt.waiting[c] = s.mpt.waiting[c] ++ made) ∧ t.mpt.absorb = s.mpt.absorb ∧
  t.mpt.pointer = s.mpt.pointer ∧
  t.hpt = { s.hpt with
    mailbox := t.hpt.mailbox, flags := { s.hpt.flags with eventOverflow := t.hpt.flags.eventOverflow } } ∧
  (t.hpt.mailbox = s.hpt.mailbox ∨ ∃ code, s.hpt.mailbox = .busy code ∧ t.hpt.mailbox = .done .ok code) ∧
  t.evq.head = s.evq.head ∧ ∃ recorded, t.evq.queue = s.evq.queue ++ recorded

end Sys2Proof.Machine
end

