-- ==== Sys2Proof/Certificates/Slice0/Obligations.lean ====
section
/-! DEFINITION. The statements for the provers, in the order of OBLIGATIONS.json. Each docstring names the rules it
rests on; where a clause is a choice of the model it names the log entry. Times are values of E in bit times. -/

open Sys2Proof Sys2Proof.Machine

/-! ## The step -/

/-- A step takes the command at the front of the queue and is exec of it on the state with the queue's rest; with no
command waiting the block idles (the model's choice, log entries 1 and 2). -/
def Obligations.StepRunsTheFrontCommand : Prop :=
  (∀ (s : State) (c : Instr) (rest : List Instr), s.pending = c :: rest →
    step s = exec c { s with pending := rest }) ∧
  (∀ s : State, s.pending = [] → step s = .next s)

/-! ## Resets (chapter 2, section 2.7) -/

/-- Power-on reset and RST_N set every block to its reset values (R38, R39, R4, R18, R22, R46, R65, R87, R105, R122,
R147, R150, R160, R161, R171); RST_N keeps POWER_UP and has the outstanding requests absorbed, and its release changes
no block. That power-on reset leaves the level of RST_N alone is the model's (log entry 20), and so are the values of the
state the manual only implies, after these resets and after RESET (log entry 22). -/
def Obligations.PowerOnAndPinResetSetEveryBlock : Prop :=
  ∀ s : State,
    (∃ t, exec .powerOnReset s = .next t ∧ exec .rstNAssert s = .next
        { t with
          mpt := { t.mpt with outstanding := s.mpt.outstanding, absorb := s.mpt.outstanding.length }
          hpt := { t.hpt with flags := { t.hpt.flags with powerUp := s.hpt.flags.powerUp } }
          rstHeld := true } ∧
      t.stc = { state := .off, start := none, cause := none, learn := 0, leavePending := false,
                leaveMarks := Vector.replicate 8 false, band := .good, windowRounds := 0, windowErrors := 0,
                report := none } ∧
      t.rtm = { elapsed := none, lastMarker := none, counter := 0, strike := false, mismatchSeen := false } ∧
      t.lif = { activity := .idle, opened := 0, lastDominant := 0, watchesFrom := 0, markerEarly := 0,
                claimCheck := 0, burstCheck := 0 } ∧
      t.smap = { entries := Vector.replicate 32 .free, observations := Vector.replicate 32 none, message := none,
                 part := .notSent, abandon := [], stamp := 0 } ∧
      t.cle = { queue := [], onLine := none, lineEnds := none } ∧
      (∀ k : TalkId, t.talk[k].state = .closed ∧ t.talk[k].tag = none ∧ t.talk[k].bound = none ∧
        t.talk[k].ring = { base := 0, ci := 0, fi := 0, current := none, ahead := none, position := 0 } ∧
        t.talk[k].requests = [] ∧ t.talk[k].staging = [] ∧ t.talk[k].readPoint = none ∧ t.talk[k].onLine = none ∧
        t.talk[k].sequence = none ∧ t.talk[k].endWait = false ∧ t.talk[k].closeTaken = false ∧
        t.talk[k].haltCause = none ∧ t.talk[k].wordsSent = 0 ∧ t.talk[k].lateCount = 0) ∧
      (∀ k : ListenId, t.listen[k].state = .closed ∧ t.listen[k].tag = none ∧ t.listen[k].bound = none ∧
        t.listen[k].ring = { base := 0, ci := 0, fi := 0, current := none, ahead := none, position := 0 } ∧
        t.listen[k].requests = [] ∧ t.listen[k].expected = none ∧ t.listen[k].lastSequence = none ∧
        t.listen[k].inWrite = [] ∧ t.listen[k].waiting = [] ∧ t.listen[k].writePoint = none ∧
        t.listen[k].episode = none ∧ t.listen[k].duplicate = false ∧ t.listen[k].close = .none ∧
        t.listen[k].haltCause = none ∧ t.listen[k].wordsReceived = 0) ∧
      t.mpt = { waiting := Vector.replicate 16 [], outstanding := [], absorb := 0, pointer := 15 } ∧
      t.hpt = { mailbox := .idle, code := 0, params := Vector.replicate 4 0, snapshot := Vector.replicate 40 0,
                flags := { powerUp := true, commandLost := false, shapeMismatch := false, lineStuck := false,
                           eventOverflow := false } } ∧
      t.evq = { queue := [], dropped := 0, head := .nothing } ∧ t.hirq = false ∧
      t.rstHeld = s.rstHeld ∧ t.pending = s.pending) ∧
    exec .rstNRelease s = .next { s with rstHeld := false } ∧
    (s.rstHeld = false → ∃ t, exec .reset s = .next t ∧ t.boundary = .nothing ∧ t.stc.report = none ∧
      t.rtm.mismatchSeen = false ∧ t.cle.lineEnds = none ∧
      t.lif = { s.lif with activity := .idle, opened := 0, lastDominant := 0, watchesFrom := 0 } ∧ t.rstHeld = false ∧
      t.pending = s.pending)

/-- The RESET command (R40, R156), in every station state and every mailbox state: what it keeps, and what it leaves. -/
def Obligations.ResetCommandKeepsTheRecordAndCounters : Prop :=
  ∀ s : State, s.rstHeld = false →
    ∃ t, exec .reset s = .next t ∧
      t.stc.state = (if s.stc.start.isSome = true then .ready else .off) ∧ t.stc.start = s.stc.start ∧
      t.stc.cause = none ∧ t.stc.learn = 0 ∧ t.stc.leavePending = false ∧
      t.stc.leaveMarks = Vector.replicate 8 false ∧ t.stc.band = .good ∧ t.stc.windowRounds = 0 ∧
      t.stc.windowErrors = 0 ∧
      t.rtm.elapsed = none ∧ t.rtm.lastMarker = none ∧ t.rtm.counter = 0 ∧ t.rtm.strike = false ∧
      t.lif.markerEarly = s.lif.markerEarly ∧ t.lif.claimCheck = s.lif.claimCheck ∧
      t.lif.burstCheck = s.lif.burstCheck ∧ t.lkoe = false ∧
      (∀ i : Slot, t.smap.entries[i] = .free) ∧ t.smap.abandon = [] ∧ t.smap.stamp = 0 ∧
      t.cle.queue = [] ∧ t.cle.onLine = none ∧
      (∀ k : TalkId, t.talk[k].state = .closed ∧ t.talk[k].ring.ci = 0 ∧ t.talk[k].ring.fi = 0 ∧
        t.talk[k].requests = []) ∧
      (∀ k : ListenId, t.listen[k].state = .closed ∧ t.listen[k].ring.ci = 0 ∧ t.listen[k].ring.fi = 0 ∧
        t.listen[k].requests = []) ∧
      (∀ c : ChannelId, t.mpt.waiting[c] = []) ∧ t.mpt.outstanding = s.mpt.outstanding ∧
      t.mpt.absorb = s.mpt.outstanding.length ∧ t.mpt.pointer = 15 ∧
      t.hpt = { mailbox := .idle, code := 0, params := Vector.replicate 4 0, snapshot := Vector.replicate 40 0,
                flags := { powerUp := s.hpt.flags.powerUp, commandLost := false, shapeMismatch := false,
                           lineStuck := false, eventOverflow := false } } ∧
      t.evq = { queue := [{ kind := .resetDone, channel := none, slot := none, station := none, tag := none,
                            detail := 0, stamp := 0 }], dropped := 0, head := .nothing } ∧ t.hirq = true

/-! ## The station commands (chapter 2) -/

/-- START in OFF keeps a record whose fields are all in range and enters READY with a FREE map; a field out of range
gives BAD_PARAM and keeps nothing; any other state gives BAD_STATE (R23, R46, R177). -/
def Obligations.StartKeepsARecordInRange : Prop :=
  ∀ s : State, s.takes →
    (s.stc.state ≠ .off → exec .start s = .next (s.answeredWith .badState 1)) ∧
    (s.stc.state = .off → ∀ (id : StationId) (shape : Shape),
      s.hpt.params[0].toNat = id.val → s.hpt.params[1].toNat = shape.code →
      16 + 16 * shape.slots ≤ s.hpt.params[2].toNat → s.hpt.params[2].toNat ≤ 4000 →
      1 ≤ (s.hpt.params[3].extractLsb' 0 7).toNat → (s.hpt.params[3].extractLsb' 0 7).toNat ≤ 64 →
      exec .start s = .next (State.answeredWith
        { s with
          stc := { s.stc with
            state := .ready
            start := some {
              id, shape, period := s.hpt.params[2].toNat,
              retryLimit := (s.hpt.params[3].extractLsb' 0 7).toNat
              mask := { claim := s.hpt.params[3].getLsbD 8, slot := s.hpt.params[3].getLsbD 9,
                        data := s.hpt.params[3].getLsbD 10, trouble := s.hpt.params[3].getLsbD 11 } } }
          smap := { s.smap with
            entries := Vector.replicate 32 .free, observations := Vector.replicate 32 none, message := none,
            part := .notSent, abandon := [] } } .ok 1)) ∧
    (s.stc.state = .off →
      (32 ≤ s.hpt.params[0].toNat ∨ 3 ≤ s.hpt.params[1].toNat ∨
        (∃ shape : Shape, s.hpt.params[1].toNat = shape.code ∧
          (s.hpt.params[2].toNat < 16 + 16 * shape.slots ∨ 4000 < s.hpt.params[2].toNat)) ∨
        (s.hpt.params[3].extractLsb' 0 7).toNat = 0 ∨ 64 < (s.hpt.params[3].extractLsb' 0 7).toNat) →
      exec .start s = .next (s.answeredWith .badParam 1))

/-- JOIN in READY enters LISTENING with the JOIN values of STC, SMAP and RTM and keeps the receive-error counters (R4,
R18, R22, R25, R46; the values of the state the manual only implies: log entry 22); LEAVE in LISTENING sets leave pending
(R27); each is answered BAD_STATE elsewhere (R25, R28). -/
def Obligations.JoinAndPendingLeave : Prop :=
  ∀ s : State, s.takes →
    (s.stc.state = .ready → exec .join s = .next (State.answeredWith
      { s with
        stc := { state := .listening, start := s.stc.start, cause := none, learn := 0, leavePending := false,
                 leaveMarks := Vector.replicate 8 false, band := .good, windowRounds := 0, windowErrors := 0,
                 report := none }
        smap := { entries := Vector.replicate 32 .free, observations := Vector.replicate 32 none, message := none,
                  part := .notSent, abandon := [], stamp := 0 }
        rtm := { elapsed := some 0, lastMarker := none, counter := 0, strike := false, mismatchSeen := false }
        lif := { s.lif with activity := .idle, opened := 0, lastDominant := 0, watchesFrom := 0 } } .ok 2)) ∧
    (s.stc.state ≠ .ready → exec .join s = .next (s.answeredWith .badState 2)) ∧
    (s.stc.state = .listening → exec .leave s = .next
      (State.answeredWith { s with stc := { s.stc with leavePending := true } } .ok 3)) ∧
    (s.stc.state = .off ∨ s.stc.state = .ready ∨ s.stc.state = .leaving →
      exec .leave s = .next (s.answeredWith .badState 3))

/-- LEAVE in JOINED (R28, R80): the station is LEAVING; every WAITING CLAIM not on the line is gone from the queue with
a WITHDRAWN record, cause LEAVE, in queue order; a CLAIM on the line, a SENT-WON CLAIM and every RELEASE stay; every
bound channel has a request, and a leave mark if that is a RELEASE. Nothing of the map, the channels, the Memory Port
or the link changes. That the first of a CLOSE and a LEAVE names the cause for the message on the line is the model's
(log entry 17). A LEAVE that comes after STC's work of a boundary, with the other blocks' shares still waiting, finds
the map and the bindings as those shares leave them (the model's choice of how they wait, log entry 4). -/
def Obligations.LeaveInJoinedQueuesReleases : Prop :=
  ∀ s : State, s.takes → s.stc.state = .joined → s.claimsDistinct →
    (s.boundary.station = true ∨ s.boundary = .nothing → ∃ t, exec .leave s = .next t ∧
      t.stc = { s.stc with state := .leaving, leaveMarks := t.stc.leaveMarks } ∧
      t.hpt.mailbox = .done .ok 3 ∧ t.hpt.code = 3 ∧ t.hpt.params = s.hpt.params ∧
      t.hpt.snapshot = s.hpt.snapshot ∧
      (∀ r ∈ s.cle.queue, r.kind = .claim → r.phase = .waiting → s.cle.onLine ≠ some r.channel → r ∉ t.cle.queue) ∧
      (∀ r ∈ s.cle.queue, r.kind = .claim → r.phase = .waiting → s.cle.onLine = some r.channel →
        r ∈ t.cle.queue ∧ t.cle.lineEnds = s.cle.lineEnds.orElse fun _ => some .leave) ∧
      (∀ r ∈ s.cle.queue, r.phase = .sentWon → r ∈ t.cle.queue) ∧
      (∀ r ∈ s.cle.queue, r.kind = .release → r ∈ t.cle.queue ∧ t.stc.leaveMarks[r.channel] = true) ∧
      (∀ k : TalkId, s.talk[k].bound.isSome = true → s.cle.holds k = false →
        { kind := .release, channel := k, slot := s.talk[k].bound, tag := s.talk[k].tag.getD 0, attempts := 0,
          sentSlot := none, phase := .waiting } ∈ t.cle.queue ∧ t.stc.leaveMarks[k] = true) ∧
      t.cle.onLine = s.cle.onLine ∧
      t.evq = (s.postAll ((s.cle.queue.filter fun r =>
          r.kind == .claim && r.phase == .waiting && s.cle.onLine != some r.channel).map fun r =>
        { kind := .withdrawn, channel := some (talkChannel r.channel), slot := r.slot.orElse fun _ => r.sentSlot,
          station := none, tag := some r.tag, detail := 4, stamp := 0 })).evq ∧
      t.smap = s.smap ∧ t.talk = s.talk ∧ t.listen = s.listen ∧ t.mpt = s.mpt ∧ t.rtm = s.rtm ∧ t.lif = s.lif ∧
      t.boundary = s.boundary ∧ t.rstHeld = s.rstHeld ∧ t.pending = s.pending) ∧
    (s.boundary.station = false → ∀ u : State, u = State.finishOthers { s with hpt := { s.hpt with code := 3 } } →
      ∃ t, exec .leave s = .next t ∧ t.stc.state = .leaving ∧ t.hpt.mailbox = .done .ok 3 ∧
        t.boundary = .nothing ∧ t.smap = u.smap ∧ t.talk = u.talk ∧ t.listen = u.listen ∧ t.mpt = u.mpt ∧
        (∀ k : TalkId, u.talk[k].bound.isSome = true → t.cle.holds k = true))

/-- LEAVE in FAULT (R34): at once READY with a FREE map and no fault cause, LINK_LEFT with detail 0, the flags
SHAPE_MISMATCH and LINE_STUCK as they were; RESET in FAULT leads to READY too, for a station that is not OFF holds a
START record; from READY the host may give JOIN. -/
def Obligations.LeaveInFaultReturnsToReady : Prop :=
  ∀ s : State, s.takes → s.stc.state = .fault →
    exec .leave s = .next (State.answeredWith (State.post
      { s with
        stc := { s.stc with state := .ready, cause := none }
        smap := { s.smap with
          entries := Vector.replicate 32 .free, observations := Vector.replicate 32 none, message := none,
          part := .notSent, abandon := [] } }
      { kind := .linkLeft, channel := none, slot := none, station := none, tag := none, detail := 0, stamp := 0 })
      .ok 3) ∧
    (∀ t, exec .leave s = .next t →
      t.hpt.flags.shapeMismatch = s.hpt.flags.shapeMismatch ∧ t.hpt.flags.lineStuck = s.hpt.flags.lineStuck ∧
      ∃ u, exec .join t = .next u ∧ u.stc.state = .listening) ∧
    (s.recordExceptInOff → ∃ t, exec .reset s = .next t ∧ t.stc.state = .ready)

/-! ## Channel commands (chapters 5 to 7 and 9) -/

/-- OPEN_TALK (R107, R152): BAD_STATE outside READY, LISTENING and JOINED; BAD_PARAM; CHANNEL_STATE for a channel that
is not CLOSED; else the channel is ARMED with the tag, ring base and FI given, its counts at 0, and its current's fetch
is made at once if the count is above 0 (R87, R93, R139, R140). -/
def Obligations.OpenTalkArmsTheChannel : Prop :=
  ∀ s : State, s.takes →
    (s.stc.state = .off ∨ s.stc.state = .leaving ∨ s.stc.state = .fault →
      exec .openTalk s = .next (s.answeredWith .badState 5)) ∧
    (s.stc.state = .ready ∨ s.stc.state = .listening ∨ s.stc.state = .joined →
      (8 ≤ s.hpt.params[0].toNat ∨ s.hpt.params[1].toNat = 0 ∨ 256 ≤ s.hpt.params[1].toNat ∨
        s.hpt.params[2].toNat % 512 ≠ 0 ∨ 32 ≤ s.hpt.params[3].toNat →
        exec .openTalk s = .next (s.answeredWith .badParam 5)) ∧
      (∀ (k : TalkId) (tag : Tag) (fi : RingIndex), s.hpt.params[0].toNat = k.val →
        s.hpt.params[1].toNat = tag.toNat → tag ≠ 0 → s.hpt.params[2].toNat % 512 = 0 →
        s.hpt.params[3].toNat = fi.val →
        (s.talk[k].state ≠ .closed → exec .openTalk s = .next (s.answeredWith .channelState 5)) ∧
        (s.talk[k].state = .closed → fi = 0 → exec .openTalk s = .next (State.answeredWith
          { s with
            talk := s.talk.set k
              { Talk.clear with
                state := .armed, tag := some tag, requests := s.talk[k].requests
                ring := { base := s.hpt.params[2], ci := 0, fi := 0, current := none, ahead := none,
                          position := 0 } } } .ok 5)) ∧
        (s.talk[k].state = .closed → fi ≠ 0 → s.talk[k].requests.length < 16 →
          exec .openTalk s = .next (State.answeredWith
          { s with
            talk := s.talk.set k
              { Talk.clear with
                state := .armed, tag := some tag
                requests := s.talk[k].requests ++
                  [{ purpose := .descFetch, stale := false, index := 0, words := 2, ok := false, event := false }]
                ring := { base := s.hpt.params[2], ci := 0, fi, current := some .fetching, ahead := none,
                          position := 0 } }
            mpt := { s.mpt with waiting := s.mpt.waiting.set (talkChannel k) (s.mpt.waiting[talkChannel k] ++
              [{ purpose := .descFetch, address := s.hpt.params[2], words := 2, requester := talkChannel k,
                 data := [] }]) } } .ok 5))))

/-- OPEN_LISTEN (R124, R152): the same tests; the channel is WAITING, unbound, with the tag, ring base and FI given and
the other fields of R122 at their reset values but for the request list. -/
def Obligations.OpenListenWaitsForItsTag : Prop :=
  ∀ s : State, s.takes →
    (s.stc.state = .off ∨ s.stc.state = .leaving ∨ s.stc.state = .fault →
      exec .openListen s = .next (s.answeredWith .badState 6)) ∧
    (s.stc.state = .ready ∨ s.stc.state = .listening ∨ s.stc.state = .joined →
      (8 ≤ s.hpt.params[0].toNat ∨ s.hpt.params[1].toNat = 0 ∨ 256 ≤ s.hpt.params[1].toNat ∨
        s.hpt.params[2].toNat % 512 ≠ 0 ∨ 32 ≤ s.hpt.params[3].toNat →
        exec .openListen s = .next (s.answeredWith .badParam 6)) ∧
      (∀ (k : ListenId) (tag : Tag) (fi : RingIndex), s.hpt.params[0].toNat = k.val →
        s.hpt.params[1].toNat = tag.toNat → tag ≠ 0 → s.hpt.params[2].toNat % 512 = 0 →
        s.hpt.params[3].toNat = fi.val →
        (s.listen[k].state ≠ .closed → exec .openListen s = .next (s.answeredWith .channelState 6)) ∧
        (s.listen[k].state = .closed → fi = 0 → exec .openListen s = .next (State.answeredWith
          { s with
            listen := s.listen.set k
              { Listen.clear with
                state := .waiting, tag := some tag, requests := s.listen[k].requests
                ring := { base := s.hpt.params[2], ci := 0, fi := 0, current := none, ahead := none,
                          position := 0 } } } .ok 6)) ∧
        (s.listen[k].state = .closed → fi ≠ 0 → s.listen[k].requests.length < 16 →
          exec .openListen s = .next (State.answeredWith
          { s with
            listen := s.listen.set k
              { Listen.clear with
                state := .waiting, tag := some tag
                requests := s.listen[k].requests ++
                  [{ purpose := .descFetch, stale := false, index := 0, words := 2, ok := false, event := false }]
                ring := { base := s.hpt.params[2], ci := 0, fi, current := some .fetching, ahead := none,
                          position := 0 } }
            mpt := { s.mpt with waiting := s.mpt.waiting.set (listenChannel k) (s.mpt.waiting[listenChannel k] ++
              [{ purpose := .descFetch, address := s.hpt.params[2], words := 2, requester := listenChannel k,
                 data := [] }]) } } .ok 6))))

/-- CLOSE of a talk channel (R45, R79, R104, R119, R120, R154): BAD_PARAM and CHANNEL_STATE; on the link, close taken,
the abandon request for a bound slot, the close notice and the mailbox BUSY; off the link, CLOSED at once, with a PARTIAL
writeback of a HELD current with words done, and the mailbox DONE. That the first of a CLOSE and a LEAVE names the cause
for a message on the line is the model's (log entry 17). -/
def Obligations.CloseOfATalkChannel : Prop :=
  ∀ s : State, s.takes →
    (16 ≤ s.hpt.params[0].toNat → exec .close s = .next (s.answeredWith .badParam 7)) ∧
    (∀ k : TalkId, s.hpt.params[0].toNat = k.val →
      (s.talk[k].state = .closed → exec .close s = .next (s.answeredWith .channelState 7)) ∧
      (s.talk[k].state ≠ .closed → s.inLink = true → ∀ u : State,
        u = { s with
              talk := s.talk.set k { s.talk[k] with closeTaken := true }
              smap := { s.smap with abandon :=
                match s.talk[k].bound with
                | some slot => if s.smap.abandon.contains slot then s.smap.abandon else s.smap.abandon ++ [slot]
                | none => s.smap.abandon }
              hpt := { s.hpt with code := 7, mailbox := .busy 7 } } →
        (s.cle.requestOf k = none → exec .close s = .next u) ∧
        (∀ r, s.cle.requestOf k = some r →
          (r.phase = .sentWon → exec .close s = .next u) ∧
          (r.phase = .waiting → s.cle.onLine = some k → exec .close s = .next
            { u with cle := { s.cle with lineEnds := s.cle.lineEnds.orElse fun _ => some .closed } }) ∧
          (r.phase = .waiting → s.cle.onLine ≠ some k → exec .close s = .next (State.post
            { u with cle := { s.cle with queue := s.cle.queue.filter fun q => q.channel != k } }
            { kind := .withdrawn, channel := some (talkChannel k), slot := r.slot.orElse fun _ => r.sentSlot,
              station := none, tag := some r.tag, detail := 3, stamp := 0 })))) ∧
      (s.talk[k].state ≠ .closed → s.inLink = false → s.talk[k].bound = none → s.cle.holds k = false →
        ∃ t, exec .close s = .next t ∧ t.hpt = { s.hpt with code := 7, mailbox := .done .ok 7 } ∧
          t.talk[k].state = .closed ∧ t.talk[k].tag = none ∧ t.talk[k].bound = none ∧ t.talk[k].staging = [] ∧
          t.talk[k].onLine = none ∧ t.talk[k].readPoint = none ∧ t.talk[k].sequence = none ∧
          t.talk[k].haltCause = none ∧ t.talk[k].endWait = false ∧ t.talk[k].closeTaken = false ∧
          t.talk[k].ring.current = none ∧ t.talk[k].ring.ahead = none ∧ t.talk[k].ring.position = 0 ∧
          t.talk[k].ring.base = s.talk[k].ring.base ∧ t.talk[k].ring.fi = s.talk[k].ring.fi ∧
          ((heldOf s.talk[k].ring.current).isSome = true → 0 < s.talk[k].ring.position →
            t.talk[k].ring.ci = s.talk[k].ring.ci + 1 ∧
            t.mpt.waiting[talkChannel k] = s.mpt.waiting[talkChannel k] ++
              [{ purpose := .writeback
                 address := s.talk[k].ring.base + BitVec.ofNat 32 (16 * s.talk[k].ring.ci.val) + 8#32
                 words := 2, requester := talkChannel k
                 data := [completionWord2 .partialUse s.talk[k].ring.position, completionWord3 s.stamp none] }]) ∧
          (heldOf s.talk[k].ring.current = none ∨ s.talk[k].ring.position = 0 →
            t.talk[k].ring.ci = s.talk[k].ring.ci ∧ t.mpt = s.mpt) ∧
          (∀ j : TalkId, j ≠ k → t.talk[j] = s.talk[j]) ∧ t.listen = s.listen ∧ t.stc = s.stc ∧ t.rtm = s.rtm ∧
          t.lif = s.lif ∧ t.smap = s.smap ∧ t.cle = s.cle ∧ t.evq = s.evq ∧ t.boundary = s.boundary ∧
          t.rstHeld = s.rstHeld ∧ t.pending = s.pending))

/-- CLOSE of a listen channel (R104, R137, R138, R154): on the link it is TAKEN and the mailbox BUSY; off the link it is
applied at once, and completes at once where no data write is outstanding, with a PARTIAL writeback that carries the
last sequence. That no fetch comes before the completion is the model's (log entry 16). -/
def Obligations.CloseOfAListenChannel : Prop :=
  ∀ (s : State) (k : ListenId), s.takes → s.hpt.params[0].toNat = k.val + 8 →
    (s.listen[k].state = .closed → exec .close s = .next (s.answeredWith .channelState 7)) ∧
    (s.listen[k].state ≠ .closed → s.inLink = true →
      exec .close s = .next
        { s with
          listen := s.listen.set k { s.listen[k] with close := .taken }
          hpt := { s.hpt with code := 7, mailbox := .busy 7 } }) ∧
    (s.listen[k].state ≠ .closed → s.inLink = false → s.listen[k].writing = true →
      ∃ t, exec .close s = .next t ∧ t.hpt.mailbox = .busy 7 ∧ t.listen[k].close = .applied ∧
        t.listen[k].waiting = [] ∧ t.listen[k].inWrite = s.listen[k].inWrite ∧ t.listen[k].bound = none ∧
        t.listen[k].episode = none ∧ t.listen[k].ring = s.listen[k].ring ∧ t.mpt = s.mpt ∧ t.talk = s.talk ∧
        t.stc = s.stc ∧ t.smap = s.smap ∧ t.cle = s.cle) ∧
    (s.listen[k].state ≠ .closed → s.inLink = false → s.listen[k].writing = false →
      ∃ t, exec .close s = .next t ∧ t.hpt.mailbox = .done .ok 7 ∧ t.listen[k].state = .closed ∧
        t.listen[k].tag = none ∧ t.listen[k].bound = none ∧ t.listen[k].inWrite = [] ∧ t.listen[k].waiting = [] ∧
        t.listen[k].close = .none ∧ t.listen[k].ring.current = none ∧ t.listen[k].ring.ahead = none ∧
        ((heldOf s.listen[k].ring.current).isSome = true → 0 < s.listen[k].ring.position →
          t.listen[k].ring.ci = s.listen[k].ring.ci + 1 ∧
          t.mpt.waiting[listenChannel k] = s.mpt.waiting[listenChannel k] ++
            [{ purpose := .writeback
               address := s.listen[k].ring.base + BitVec.ofNat 32 (16 * s.listen[k].ring.ci.val) + 8#32
               words := 2, requester := listenChannel k
               data := [completionWord2 .partialUse s.listen[k].ring.position,
                        completionWord3 s.stamp s.listen[k].lastSequence] }]) ∧
        (heldOf s.listen[k].ring.current = none ∨ s.listen[k].ring.position = 0 →
          t.listen[k].ring.ci = s.listen[k].ring.ci ∧ t.mpt = s.mpt) ∧
        (∀ j : ListenId, j ≠ k → t.listen[j] = s.listen[j]) ∧ t.talk = s.talk ∧ t.stc = s.stc ∧ t.smap = s.smap ∧
        t.cle = s.cle)

/-- RESUME (R103, R118, R135, R154): BAD_PARAM; CHANNEL_STATE for a channel that is not HALTED; on the link it waits for
the boundary with the mailbox BUSY; off the link the channel leaves HALTED at once, makes the fetch its ring calls for
(R93) and the mailbox shows DONE. -/
def Obligations.ResumeLeavesHalted : Prop :=
  ∀ s : State, s.takes →
    (16 ≤ s.hpt.params[0].toNat → exec .resume s = .next (s.answeredWith .badParam 8)) ∧
    (∀ k : TalkId, s.hpt.params[0].toNat = k.val →
      (s.talk[k].state ≠ .halted → exec .resume s = .next (s.answeredWith .channelState 8)) ∧
      (s.talk[k].state = .halted → s.inLink = true → exec .resume s = .next
        { s with
          talk := s.talk.set k { s.talk[k] with resumeWaits := true }
          hpt := { s.hpt with code := 8, mailbox := .busy 8 } }) ∧
      (s.talk[k].state = .halted → s.inLink = false → s.talk[k].bound = none →
        ∃ t, exec .resume s = .next t ∧ t.hpt = { s.hpt with code := 8, mailbox := .done .ok 8 } ∧
          t.talk[k].state = .armed ∧ t.talk[k].haltCause = none ∧ t.talk[k].ring.ci = s.talk[k].ring.ci ∧
          s.talkAsks t k [] { s.talk[k] with state := .armed, haltCause := none, resumeWaits := false } ∧
          (∀ j : TalkId, j ≠ k → t.talk[j] = s.talk[j]) ∧ t.listen = s.listen ∧ t.evq = s.evq ∧ t.stc = s.stc ∧
          t.smap = s.smap ∧ t.cle = s.cle)) ∧
    (∀ k : ListenId, s.hpt.params[0].toNat = k.val + 8 →
      (s.listen[k].state ≠ .halted → exec .resume s = .next (s.answeredWith .channelState 8)) ∧
      (s.listen[k].state = .halted → s.inLink = true → exec .resume s = .next
        { s with
          listen := s.listen.set k { s.listen[k] with resumeWaits := true }
          hpt := { s.hpt with code := 8, mailbox := .busy 8 } }) ∧
      (s.listen[k].state = .halted → s.inLink = false →
        ∃ t, exec .resume s = .next t ∧ t.hpt = { s.hpt with code := 8, mailbox := .done .ok 8 } ∧
          t.listen[k].state = .waiting ∧ t.listen[k].haltCause = none ∧ t.listen[k].bound = none ∧
          t.listen[k].ring.ci = s.listen[k].ring.ci ∧
          s.listenAsks t k []
            { s.listen[k] with state := .waiting, haltCause := none, bound := none, resumeWaits := false } ∧
          (∀ j : ListenId, j ≠ k → t.listen[j] = s.listen[j]) ∧ t.talk = s.talk ∧ t.evq = s.evq ∧ t.stc = s.stc ∧
          t.smap = s.smap ∧ t.cle = s.cle))

/-- CLAIM and RELEASE (R67, R68, R152): the tests in their order, and the request that joins the queue's tail with
attempts 0, no sent slot, WAITING (R66). -/
def Obligations.ClaimAndReleaseJoinTheQueue : Prop :=
  ∀ s : State, s.takes →
    (s.stc.state ≠ .joined → exec .claim s = .next (s.answeredWith .badState 9) ∧
      exec .release s = .next (s.answeredWith .badState 10)) ∧
    (s.stc.state = .joined →
      (8 ≤ s.hpt.params[0].toNat → exec .claim s = .next (s.answeredWith .badParam 9) ∧
        exec .release s = .next (s.answeredWith .badParam 10)) ∧
      (s.hpt.params[1].toNat ≠ 255 → s.slots ≤ s.hpt.params[1].toNat →
        exec .claim s = .next (s.answeredWith .badParam 9)) ∧
      (∀ k : TalkId, s.hpt.params[0].toNat = k.val →
        (∀ wanted : Option Slot,
          ((s.hpt.params[1].toNat = 255 ∧ wanted = none) ∨
            (∃ slot : Slot, s.hpt.params[1].toNat = slot.val ∧ slot.val < s.slots ∧ wanted = some slot)) →
          (s.talk[k].state ≠ .armed → exec .claim s = .next (s.answeredWith .channelState 9)) ∧
          (s.talk[k].state = .armed → 8 ≤ s.cle.queue.length →
            exec .claim s = .next (s.answeredWith .queueFull 9)) ∧
          (s.talk[k].state = .armed → s.cle.queue.length < 8 → s.cle.holds k = true →
            exec .claim s = .next (s.answeredWith .duplicate 9)) ∧
          (∀ tag : Tag, s.talk[k].tag = some tag → s.talk[k].state = .armed → s.cle.queue.length < 8 →
            s.cle.holds k = false →
            exec .claim s = .next (State.answeredWith
              { s with cle := { s.cle with queue := s.cle.queue ++
                [{ kind := .claim, channel := k, slot := wanted, tag, attempts := 0, sentSlot := none,
                   phase := .waiting }] } } .ok 9))) ∧
        (s.talk[k].bound = none → exec .release s = .next (s.answeredWith .channelState 10)) ∧
        (s.talk[k].bound.isSome = true → 8 ≤ s.cle.queue.length →
          exec .release s = .next (s.answeredWith .queueFull 10)) ∧
        (s.talk[k].bound.isSome = true → s.cle.queue.length < 8 → s.cle.holds k = true →
          exec .release s = .next (s.answeredWith .duplicate 10)) ∧
        (∀ (slot : Slot) (tag : Tag), s.talk[k].bound = some slot → s.talk[k].tag = some tag →
          s.cle.queue.length < 8 → s.cle.holds k = false →
          exec .release s = .next (State.answeredWith
            { s with cle := { s.cle with queue := s.cle.queue ++
              [{ kind := .release, channel := k, slot := some slot, tag, attempts := 0, sentSlot := none,
                 phase := .waiting }] } } .ok 10))))

/-! ## Snapshots, window and event queue (chapters 9 to 11) -/

/-- READ_MAP (R64, R160, R177): the entry words, the last applied stamp, the rest 0; nothing else changes. -/
def Obligations.ReadMapCopiesTheMap : Prop :=
  ∀ s : State, s.takes → s.mapBounded →
    ∃ t, exec .readMap s = .next t ∧
      t = { s with hpt := { s.hpt with code := 12, mailbox := .done .ok 12, snapshot := t.hpt.snapshot } } ∧
      (∀ i : Fin 40, 33 ≤ i.val → t.hpt.snapshot[i] = 0) ∧ t.hpt.snapshot[32] = s.smap.stamp.setWidth 32 ∧
      (∀ (slot : Slot) (w : Word), w = t.hpt.snapshot[slot.val]'(by omega) →
        match s.smap.entries[slot] with
        | .free => w = 0
        | .own tag rival mismatches =>
          w.extractLsb' 0 2 = 1 ∧ w.extractLsb' 8 5 = BitVec.ofNat 5 s.selfId.val ∧ w.extractLsb' 16 8 = tag ∧
          w.extractLsb' 24 4 = 0 ∧ w.getLsbD 28 = rival.isSome ∧ (w.getLsbD 29 = true ↔ mismatches = 1)
        | .peer owner tag silent rival =>
          w.extractLsb' 0 2 = 1 ∧ w.extractLsb' 8 5 = BitVec.ofNat 5 owner.val ∧ w.extractLsb' 16 8 = tag ∧
          (w.extractLsb' 24 4).toNat = silent ∧ w.getLsbD 28 = rival.isSome ∧ w.getLsbD 29 = false
        | .quarantine remaining =>
          w.extractLsb' 0 2 = 2 ∧ w.extractLsb' 8 5 = 0 ∧ w.extractLsb' 16 8 = 0 ∧
          (w.extractLsb' 24 4).toNat = remaining ∧ w.getLsbD 28 = false ∧ w.getLsbD 29 = false)

/-- READ_STATUS between boundaries (R24, R158, R160, R177): each item in its place; nothing else changes. -/
def Obligations.ReadStatusCopiesTheRecord : Prop :=
  ∀ s : State, s.takes → s.settled → s.countsBounded → s.eventsBounded → s.cle.queue.length ≤ 8 → s.recordInRange →
    ∃ t, exec .readStatus s = .next t ∧
      t = { s with hpt := { s.hpt with code := 11, mailbox := .done .ok 11, snapshot := t.hpt.snapshot } } ∧
      (t.hpt.snapshot[0].extractLsb' 0 3).toNat = s.stc.state.code ∧
      t.hpt.snapshot[0].getLsbD 3 = (s.stc.band == .degraded) ∧
      (t.hpt.snapshot[0].extractLsb' 4 2).toNat = (s.stc.cause.map FaultCause.code).getD 0 ∧
      t.hpt.snapshot[0].getLsbD 6 = s.stc.start.isSome ∧
      (t.hpt.snapshot[0].extractLsb' 8 4).toNat = s.stc.learn ∧
      (t.hpt.snapshot[0].extractLsb' 12 6).toNat = s.stc.windowRounds ∧
      (t.hpt.snapshot[0].extractLsb' 18 8).toNat = s.stc.windowErrors ∧
      (∀ r, s.stc.start = some r →
        (t.hpt.snapshot[1].extractLsb' 0 5).toNat = r.id.val ∧
        (t.hpt.snapshot[1].extractLsb' 8 2).toNat = r.shape.code ∧
        (t.hpt.snapshot[1].extractLsb' 16 12).toNat = r.period) ∧
      (s.stc.start = none → t.hpt.snapshot[1] = 0) ∧
      t.hpt.snapshot[2] = s.rtm.counter ∧
      (t.hpt.snapshot[3].extractLsb' 0 6).toNat = s.smap.ownCount ∧
      (t.hpt.snapshot[3].extractLsb' 8 4).toNat = s.cle.queue.length ∧
      (t.hpt.snapshot[3].extractLsb' 16 6).toNat = s.evq.queue.length ∧
      (t.hpt.snapshot[4].extractLsb' 0 16).toNat = s.evq.dropped ∧
      (t.hpt.snapshot[4].extractLsb' 16 16).toNat = s.lif.markerEarly ∧
      (t.hpt.snapshot[5].extractLsb' 0 16).toNat = s.lif.claimCheck ∧
      (t.hpt.snapshot[5].extractLsb' 16 16).toNat = s.lif.burstCheck ∧
      (∀ (k : TalkId) (w : Word), w = t.hpt.snapshot[6 + k.val]'(by omega) →
        (w.extractLsb' 0 3).toNat = s.talk[k].state.code ∧ (w.extractLsb' 8 5).toNat = s.talk[k].ring.ci.val ∧
        (s.talk[k].lateCount ≤ 65535 → (w.extractLsb' 16 16).toNat = s.talk[k].lateCount)) ∧
      (∀ k : TalkId, t.hpt.snapshot[14 + k.val]'(by omega) = s.talk[k].wordsSent) ∧
      (∀ (k : ListenId) (w : BitVec 16),
        w = (t.hpt.snapshot[22 + k.val / 2]'(by omega)).extractLsb' (16 * (k.val % 2)) 16 →
        (w.extractLsb' 0 3).toNat = s.listen[k].state.code ∧ w.getLsbD 3 = s.listen[k].bound.isSome ∧
        (w.extractLsb' 4 5).toNat = (s.listen[k].bound.map Fin.val).getD 0 ∧
        (w.extractLsb' 9 5).toNat = s.listen[k].ring.ci.val) ∧
      (∀ k : ListenId, t.hpt.snapshot[26 + k.val]'(by omega) = s.listen[k].wordsReceived) ∧
      (∀ i : Fin 40, 34 ≤ i.val → t.hpt.snapshot[i] = 0)

/-- A code that names no command is answered BAD_PARAM, and a code other than RESET written while the mailbox is BUSY is
lost: COMMAND_LOST is set, the command in progress goes on (R151, R175). That the code word then reads the lost code is
the model's (log entry 8). -/
def Obligations.UnknownAndLostCodesDoNothingElse : Prop :=
  (∀ (s : State) (code : BitVec 8), s.takes → code = 0 ∨ 12 < code.toNat →
    exec (.unknownCommand code) s = .next (s.answeredWith .badParam code)) ∧
  (∀ (s : State) (inProgress : BitVec 8), s.rstHeld = false → s.hpt.mailbox = .busy inProgress →
    (∀ code : BitVec 8, code ≠ 4 → exec (.lostCommandWrite code) s = .next
      { s with hpt := { s.hpt with code := code, flags := { s.hpt.flags with commandLost := true } } }) ∧
    (∀ p ∈ [(Instr.start, 1#8), (.join, 2#8), (.leave, 3#8), (.openTalk, 5#8), (.openListen, 6#8), (.close, 7#8),
        (.resume, 8#8), (.claim, 9#8), (.release, 10#8), (.readStatus, 11#8), (.readMap, 12#8)],
      exec p.1 s = .next
        { s with hpt := { s.hpt with code := p.2, flags := { s.hpt.flags with commandLost := true } } }))

/-- A Fill index write (R90, R92, R93, R113, R133, R157, R176): rejected with FILL_REJECTED for a CLOSED channel (cause
CLOSED) or where the count would fall below the taken descriptors (cause RETRACT); else FI becomes bits 4:0, CI, the
binding and the taken current and ahead stay, a STARVED channel with a count goes on, the requests then called for are
made, and the Fill index word reads the FI. The mailbox is not involved. -/
def Obligations.FillIndexWritesAreJudged : Prop :=
  ∀ (s : State) (value : Word) (fi : RingIndex), s.rstHeld = false → fi.val = value.toNat % 32 →
    (∀ k : TalkId,
      (s.talk[k].state = .closed → exec (.fillIndexWrite (talkChannel k) value) s = .next (s.post
        { kind := .fillRejected, channel := some (talkChannel k), slot := none, station := none, tag := none,
          detail := 2, stamp := 0 })) ∧
      (s.talk[k].state ≠ .closed → (fi - s.talk[k].ring.ci).val < s.talk[k].ring.taken →
        exec (.fillIndexWrite (talkChannel k) value) s = .next (s.post
          { kind := .fillRejected, channel := some (talkChannel k), slot := none, station := none, tag := none,
            detail := 1, stamp := 0 })) ∧
      (s.talk[k].state ≠ .closed → s.talk[k].ring.taken ≤ (fi - s.talk[k].ring.ci).val →
        ∃ t, exec (.fillIndexWrite (talkChannel k) value) s = .next t ∧ t.talk[k].ring.fi = fi ∧
          s.talkAsks t k [] (Talk.due { s.talk[k] with ring := { s.talk[k].ring with fi } }) ∧
          t.windowRead (BitVec.ofNat 7 (14 + k.val)) = BitVec.ofNat 32 fi.val ∧
          t.talk[k].ring.ci = s.talk[k].ring.ci ∧ t.talk[k].ring.base = s.talk[k].ring.base ∧
          t.talk[k].ring.position = s.talk[k].ring.position ∧ t.talk[k].bound = s.talk[k].bound ∧
          (s.talk[k].ring.current.isSome = true → t.talk[k].ring.current = s.talk[k].ring.current) ∧
          (s.talk[k].ring.ahead.isSome = true → t.talk[k].ring.ahead = s.talk[k].ring.ahead) ∧
          t.talk[k].sequence = s.talk[k].sequence ∧ t.talk[k].staging = s.talk[k].staging ∧
          t.talk[k].wordsSent = s.talk[k].wordsSent ∧ t.talk[k].lateCount = s.talk[k].lateCount ∧
          (s.talk[k].state = .starved → s.talk[k].bound.isSome = true → s.talk[k].ring.ci ≠ fi →
            t.talk[k].state = .running) ∧
          (∀ j : TalkId, j ≠ k → t.talk[j] = s.talk[j]) ∧ t.listen = s.listen ∧
          t.hpt.mailbox = s.hpt.mailbox ∧ t.hpt.code = s.hpt.code ∧ t.hpt.params = s.hpt.params ∧
          t.stc = s.stc ∧ t.smap = s.smap ∧ t.cle = s.cle ∧ t.rtm = s.rtm ∧ t.lif = s.lif)) ∧
    (∀ k : ListenId,
      (s.listen[k].state = .closed → exec (.fillIndexWrite (listenChannel k) value) s = .next (s.post
        { kind := .fillRejected, channel := some (listenChannel k), slot := none, station := none, tag := none,
          detail := 2, stamp := 0 })) ∧
      (s.listen[k].state ≠ .closed → (fi - s.listen[k].ring.ci).val < s.listen[k].ring.taken →
        exec (.fillIndexWrite (listenChannel k) value) s = .next (s.post
          { kind := .fillRejected, channel := some (listenChannel k), slot := none, station := none, tag := none,
            detail := 1, stamp := 0 })) ∧
      (s.listen[k].state ≠ .closed → s.listen[k].ring.taken ≤ (fi - s.listen[k].ring.ci).val →
        ∃ t, exec (.fillIndexWrite (listenChannel k) value) s = .next t ∧ t.listen[k].ring.fi = fi ∧
          s.listenAsks t k [] (Listen.due { s.listen[k] with ring := { s.listen[k].ring with fi } }) ∧
          t.windowRead (BitVec.ofNat 7 (22 + k.val)) = BitVec.ofNat 32 fi.val ∧
          t.listen[k].ring.ci = s.listen[k].ring.ci ∧ t.listen[k].ring.position = s.listen[k].ring.position ∧
          t.listen[k].bound = s.listen[k].bound ∧ t.listen[k].expected = s.listen[k].expected ∧
          (s.listen[k].ring.current.isSome = true → t.listen[k].ring.current = s.listen[k].ring.current) ∧
          (s.listen[k].ring.ahead.isSome = true → t.listen[k].ring.ahead = s.listen[k].ring.ahead) ∧
          (s.listen[k].state = .starved → s.listen[k].bound.isSome = true → s.listen[k].ring.ci ≠ fi →
            t.listen[k].state = .receiving) ∧
          (∀ j : ListenId, j ≠ k → t.listen[j] = s.listen[j]) ∧ t.talk = s.talk ∧
          t.hpt.mailbox = s.hpt.mailbox ∧ t.stc = s.stc ∧ t.smap = s.smap ∧ t.cle = s.cle))

/-- A write to the flag word clears each flag written with 1 and leaves the others (R161, R175); a parameter word keeps
what is written (R150); a write to a read-only or unused word, and every window write, code and pop while RST_N is
held, change nothing (R176). A read of the ID, LINK, flag, code, parameter, result and snapshot words gives what the
part holds at that moment, and Fill index word c the FI of channel c, every bit that carries no field and every unused
word reading 0 (R150, R157, R160, R164, R175, R176). HIRQ is asserted exactly while the event queue holds a record and
RST_N is not held (R163). -/
def Obligations.WindowWritesActOnTheirWordOnly : Prop :=
  (∀ s : State,
    s.windowRead 0 = 0x32400001 ∧
    s.windowRead 1 = BitVec.ofNat 32 ((match s.stc.state with
      | .off => 0 | .ready => 1 | .listening => 2 | .joined => 3 | .leaving => 4 | .fault => 5) +
      (match s.stc.band with | .good => 0 | .degraded => 256)) ∧
    ((s.windowRead 2).getLsbD 0 = s.hpt.flags.powerUp ∧ (s.windowRead 2).getLsbD 1 = s.hpt.flags.commandLost ∧
      (s.windowRead 2).getLsbD 2 = s.hpt.flags.shapeMismatch ∧ (s.windowRead 2).getLsbD 3 = s.hpt.flags.lineStuck ∧
      (s.windowRead 2).getLsbD 4 = s.hpt.flags.eventOverflow ∧ (s.windowRead 2).extractLsb' 5 27 = 0) ∧
    (s.windowRead 3).extractLsb' 0 8 = s.hpt.code ∧ (s.windowRead 3).extractLsb' 8 24 = 0 ∧
    (∀ i : Fin 4, s.windowRead (BitVec.ofNat 7 (4 + i.val)) = s.hpt.params[i]) ∧
    (∀ k : TalkId, s.windowRead (BitVec.ofNat 7 (14 + k.val)) = BitVec.ofNat 32 s.talk[k].ring.fi.val) ∧
    (∀ k : ListenId, s.windowRead (BitVec.ofNat 7 (22 + k.val)) = BitVec.ofNat 32 s.listen[k].ring.fi.val) ∧
    s.windowRead 8 = (match s.hpt.mailbox with
      | .idle => 0
      | .busy code => BitVec.ofNat 32 (1 + 65536 * code.toNat)
      | .done result code => BitVec.ofNat 32 (2 + 256 * (match result with
          | .ok => 0 | .badState => 1 | .badParam => 2 | .channelState => 3 | .queueFull => 4 | .duplicate => 5) +
          65536 * code.toNat)) ∧
    (∀ i : Fin 40, s.windowRead (BitVec.ofNat 7 (30 + i.val)) = s.hpt.snapshot[i]) ∧
    (∀ index : BitVec 7, 70 ≤ index.toNat → s.windowRead index = 0) ∧
    (s.hirq = true ↔ s.rstHeld = false ∧ s.evq.queue ≠ [])) ∧
  ∀ (s : State) (value : Word),
    (s.rstHeld = false → exec (.flagWrite value) s = .next
      { s with hpt := { s.hpt with flags :=
        { powerUp := s.hpt.flags.powerUp && !value.getLsbD 0
          commandLost := s.hpt.flags.commandLost && !value.getLsbD 1
          shapeMismatch := s.hpt.flags.shapeMismatch && !value.getLsbD 2
          lineStuck := s.hpt.flags.lineStuck && !value.getLsbD 3
          eventOverflow := s.hpt.flags.eventOverflow && !value.getLsbD 4 } } }) ∧
    (s.rstHeld = false → ∀ i : Fin 4, exec (.windowWriteIgnored (BitVec.ofNat 7 (4 + i.val)) value) s = .next
      { s with hpt := { s.hpt with params := s.hpt.params.set i value } }) ∧
    (∀ index : BitVec 7, index.toNat < 2 ∨ (8 ≤ index.toNat ∧ index.toNat < 14) ∨ 30 ≤ index.toNat →
      exec (.windowWriteIgnored index value) s = .next s) ∧
    (s.rstHeld = true →
      ∀ c : Instr, (c ∈ [Instr.start, .join, .leave, .reset, .openTalk, .openListen, .close, .resume, .claim,
          .release, .readStatus, .readMap, .pop, .flagWrite value] ∨ (∃ code, c = .unknownCommand code) ∨
          (∃ code, c = .lostCommandWrite code) ∨ (∃ channel, c = .fillIndexWrite channel value) ∨
          ∃ index, c = .windowWriteIgnored index value) → exec c s = .next s)

/-- A pop (R169, R170): the oldest record leaves for the head words and its first word is read; from an empty queue the
NONE record; while records have been dropped, EVENTS_LOST takes the freed place with the count, which returns to 0, so
that a full queue stays full. A record that arrives just after is dropped and counted for the next EVENTS_LOST; one
that arrived just before is counted in this one. Writes to the pop word and the head words change nothing, and after
every reset the head words hold NONE. A record that a block makes is recorded if its class is LINK or QUEUE, if the
mask chooses its class, or if no START record is held (R166); one that is not recorded changes nothing. A recorded one
is entered at the tail with the round stamp, or at a full queue dropped and counted with EVENT_OVERFLOW set (R165,
R167, R168). The head words hold a record's fields at the bits and with the kind and class codes of R177: a presence
bit for each optional field, an absent field reading 0, and 0 in every bit that carries no field (R176). -/
def Obligations.PopHandsOverTheOldestRecord : Prop :=
  (∀ (s : State) (r : EventRecord),
    (∀ record : StartRecord, s.stc.start = some record → s.records r.kind =
      if r.kind ∈ [.granted, .refused, .expired, .withdrawn, .noSlot, .released, .releaseExpired] then record.mask.claim
      else if r.kind = .slotLost then record.mask.slot
      else if r.kind ∈ [.bufferDone, .streamBound, .streamGone, .channelStarved] then record.mask.data
      else if r.kind ∈ [.channelHalted, .writebackFailed, .fillRejected, .sequenceGap, .duplicateTag, .dropEpisode] then
        record.mask.trouble
      else true) ∧
    (s.stc.start = none → s.records r.kind = true) ∧
    (s.records r.kind = false → s.post r = s) ∧
    (s.records r.kind = true → s.evq.queue.length < 32 → s.post r =
      { s with evq := { s.evq with queue := s.evq.queue ++ [{ r with stamp := s.rtm.counter.setWidth 16 }] } }) ∧
    (s.records r.kind = true → 32 ≤ s.evq.queue.length → s.post r =
      { s with
        evq := { s.evq with dropped := min 65535 (s.evq.dropped + 1) }
        hpt := { s.hpt with flags := { s.hpt.flags with eventOverflow := true } } })) ∧
  (∀ s : State, s.rstHeld = false →
    (s.evq.queue = [] → exec .pop s = .next
      { s with evq := { s.evq with head :=
        { kind := .none, channel := none, slot := none, station := none, tag := none, detail := 0, stamp := 0 } } } ∧
      s.windowRead 13 = 0) ∧
    (∀ r rest, s.evq.queue = r :: rest →
      s.windowRead 13 = r.headWord 0 ∧
      (s.evq.dropped = 0 → exec .pop s = .next { s with evq := { queue := rest, dropped := 0, head := r } }) ∧
      (0 < s.evq.dropped → exec .pop s = .next
        { s with evq :=
          { queue := rest ++
              [{ kind := .eventsLost, channel := none, slot := none, station := none, tag := none,
                 detail := BitVec.ofNat 16 s.evq.dropped, stamp := s.rtm.counter.setWidth 16 }]
            dropped := 0, head := r } })) ∧
    (∀ (r : EventRecord) (t : State), s.evq.queue.length = 32 → 0 < s.evq.dropped → s.records r.kind = true →
      (exec .pop s = .next t → t.evq.queue.length = 32 ∧ (t.post r).evq.queue = t.evq.queue ∧
        (t.post r).evq.dropped = 1) ∧
      (s.evq.dropped < 65535 → exec .pop (s.post r) = .next t →
        t.evq.queue.length = 32 ∧ t.evq.dropped = 0 ∧
        t.evq.queue.getLast?.map EventRecord.detail = some (BitVec.ofNat 16 (s.evq.dropped + 1)))) ∧
    (∀ (index : BitVec 7) (value : Word), 9 ≤ index.toNat → index.toNat ≤ 13 →
      exec (.windowWriteIgnored index value) s = .next s)) ∧
  (∀ (s : State) (j : Fin 4), s.windowRead (BitVec.ofNat 7 (9 + j.val)) = s.evq.head.headWord j) ∧
  (∀ r : EventRecord,
    (r.headWord 0).extractLsb' 0 8 = (match r.kind with
      | .none => 0 | .linkJoined => 1 | .linkLeft => 2 | .faultEntered => 3 | .bandChanged => 4 | .resetDone => 5
      | .granted => 16 | .refused => 17 | .expired => 18 | .withdrawn => 19 | .noSlot => 20 | .released => 21
      | .releaseExpired => 22 | .slotLost => 32
      | .bufferDone => 48 | .streamBound => 49 | .streamGone => 50 | .channelStarved => 51
      | .channelHalted => 64 | .writebackFailed => 65 | .fillRejected => 66 | .sequenceGap => 67
      | .duplicateTag => 68 | .dropEpisode => 69 | .eventsLost => 80) ∧
    (r.headWord 0).extractLsb' 8 3 = (match r.kind with
      | .none => 0
      | .linkJoined | .linkLeft | .faultEntered | .bandChanged | .resetDone => 1
      | .granted | .refused | .expired | .withdrawn | .noSlot | .released | .releaseExpired => 2
      | .slotLost => 3
      | .bufferDone | .streamBound | .streamGone | .channelStarved => 4
      | .channelHalted | .writebackFailed | .fillRejected | .sequenceGap | .duplicateTag | .dropEpisode => 5
      | .eventsLost => 6) ∧
    (r.headWord 0).extractLsb' 11 5 = 0 ∧
    (r.headWord 0).getLsbD 16 = r.channel.isSome ∧ (r.headWord 0).getLsbD 17 = r.slot.isSome ∧
    (r.headWord 0).getLsbD 18 = r.station.isSome ∧ (r.headWord 0).getLsbD 19 = r.tag.isSome ∧
    (r.headWord 0).extractLsb' 20 12 = 0 ∧
    ((r.headWord 1).extractLsb' 0 4).toNat = (r.channel.map Fin.val).getD 0 ∧ (r.headWord 1).extractLsb' 4 4 = 0 ∧
    ((r.headWord 1).extractLsb' 8 5).toNat = (r.slot.map Fin.val).getD 0 ∧ (r.headWord 1).extractLsb' 13 3 = 0 ∧
    ((r.headWord 1).extractLsb' 16 5).toNat = (r.station.map Fin.val).getD 0 ∧
    (r.headWord 1).extractLsb' 21 3 = 0 ∧ (r.headWord 1).extractLsb' 24 8 = r.tag.getD 0 ∧
    (r.headWord 2).extractLsb' 0 16 = r.detail ∧ (r.headWord 2).extractLsb' 16 16 = 0 ∧
    (r.headWord 3).extractLsb' 0 16 = r.stamp ∧ (r.headWord 3).extractLsb' 16 16 = 0) ∧
  (∀ s t : State, (exec .powerOnReset s = .next t ∨ exec .rstNAssert s = .next t ∨
    (s.rstHeld = false ∧ exec .reset s = .next t)) → t.evq.head = .nothing)

/-! ## Markers, time and faults (chapter 1, section 2.5) -/

/-- When E reaches P (R5): an idle line gets the station's marker, from its first bit at E = P; on a line that is not
idle the station waits, and begins its marker at the first later moment at which the line is idle. Recognition of a
marker that ends at a pattern bit, or is abandoned because an element of the round opens before that bit, discards the
bits read and counts nothing; the line is idle again 20 bit times after the last dominant one of them (R2). Off the
link nothing happens (R1, R4). The times that the commands carry, and the record of the last dominant bit, are the
model's (log entries 2 and 14). -/
def Obligations.MarkersBegunAndAbandoned : Prop :=
  (∀ (s : State) (start : Nat) (bits : List Bool),
    ((∀ b ∈ bits, b = true) → s.dominantAfter start bits = s.lif.lastDominant) ∧
    (∀ before after, bits = before ++ false :: after → (∀ b ∈ after, b = true) →
      s.dominantAfter start bits = max s.lif.lastDominant (start + before.length + 1))) ∧
  ∀ s : State, s.settled →
    (s.inLink = false → (∀ idle, exec (.periodReached idle) s = .next s) ∧
      (∀ time, exec (.lineIdleMarker time) s = .next s) ∧
      (∀ began matched, exec (.markerRecognitionEnded began matched) s = .next s)) ∧
    (s.inLink = true →
      (s.now ≤ s.period → s.lif.activity = .idle → s.lif.lastDominant + 20 ≤ s.period →
        exec (.periodReached true) s = .next
          { s with
            rtm := { s.rtm with elapsed := some s.period }
            lif := { s.lif with activity := .marker s.period } }) ∧
      (∀ idle, s.now ≤ s.period →
        idle = false ∨ s.lif.activity ≠ .idle ∨ s.period < s.lif.lastDominant + 20 →
        exec (.periodReached idle) s = .next { s with rtm := { s.rtm with elapsed := some s.period } }) ∧
      (∀ time, s.now ≤ time → s.period ≤ time → s.lif.activity = .idle → s.lif.lastDominant + 20 ≤ time →
        time ≤ 2 * s.period →
        exec (.lineIdleMarker time) s = .next
          { s with
            rtm := { s.rtm with elapsed := some time }
            lif := { s.lif with activity := .marker time } }) ∧
      (∀ time, s.now ≤ time → time < s.period ∨ s.lif.activity ≠ .idle ∨ time < s.lif.lastDominant + 20 →
        exec (.lineIdleMarker time) s = .next s) ∧
      (∀ (began matched n : Nat) (bits : List Bool), s.lif.activity = .idle → s.lif.lastDominant + 20 ≤ began →
        s.lif.watchesFrom ≤ began → 1 ≤ matched → matched ≤ 15 → s.now ≤ began →
        bits = ((List.range (matched + 1)).map fun i => (0x16CF#16).getMsbD i != decide (i = matched)) →
        (((∀ t, s.opensAt t → t < began ∨ began + matched + 1 ≤ t) ∧ n = matched + 1) ∨
          ∃ t, s.opensAt t ∧ began ≤ t ∧ t < began + matched + 1 ∧ n = t - began) →
        began + n ≤ 2 * s.period →
        exec (.markerRecognitionEnded began matched) s = .next
          { s with
            rtm := { s.rtm with elapsed := some (began + n) }
            lif := { s.lif with lastDominant := s.dominantAfter began (bits.take n) } }) ∧
      (∀ began matched, s.lif.activity ≠ .idle ∨ began < s.lif.lastDominant + 20 ∨ began < s.lif.watchesFrom →
        exec (.markerRecognitionEnded began matched) s = .next s))

/-- The own marker, all 24 bits read back as sent, is accepted from its own first bit and opens a round (R6 to R8).
How the boundary then waits at the blocks and the times LIF keeps are the model's (log entries 4 and 14). -/
def Obligations.OwnMarkerOpensARound : Prop :=
  ∀ (s : State) (own : Nat), s.settled → s.inLink = true → s.lif.activity = .marker own → s.now ≤ own + 24 →
    own + 24 ≤ 2 * s.period →
    ∃ t, exec .ownMarkerSent s = .next t ∧ s.opensRound t own

/-- A heard marker, heard after an idle line or on the line from the station's own attempt at one (R6, R7, R9), which
is judged from the attempt's own first bit: a bad check is discarded; the own shape at least P/2 after the last
accepted marker, or with none accepted, opens a round; earlier it counts one MARKER_EARLY (R18, R35); a foreign shape
sets SHAPE_MISMATCH and the strike, or with the strike set puts the station into FAULT with cause SHAPE (R31), with its
FAULT_ENTERED and the WITHDRAWN records (R81, R83), in the same step (the model's choice, log entry 6; the order of the
records too, log entry 10). A marker that does not follow an idle line, that begins in an element LIF sends or
receives, or that an element opens within, is none: its bits only keep the line from being idle (R2). How the boundary
waits at the blocks, the record of the last dominant bit, and what the stopped link's implied state holds, are the
model's too (log entries 4, 14 and 22). -/
def Obligations.HeardMarkersAreJudged : Prop :=
  (∀ (s : State) (began n : Nat) (bits : BitVec 24), s.settled → s.inLink = true → s.lif.activity = .idle →
    (began < s.lif.lastDominant + 20 ∨ began < s.lif.watchesFrom ∨ bits.extractLsb' 8 16 ≠ 0x16CF#16 ∨
      ∃ t, s.opensAt t ∧ began ≤ t ∧ t < began + 24) →
    (((∀ t, s.opensAt t → t < began ∨ began + 24 ≤ t ∨ t < s.now) ∧ n = 24) ∨
      ∃ t, s.opensAt t ∧ began ≤ t ∧ t < began + 24 ∧ s.now ≤ t ∧ n = t - began) →
    s.now ≤ 2 * s.period → began + n ≤ 2 * s.period →
    exec (.heardMarker began bits) s = .next
      { s with
        rtm := { s.rtm with elapsed := some (max s.now (began + n)) }
        lif := { s.lif with lastDominant := s.dominantAfter began ((bitsOf bits).take n) } }) ∧
  (∀ (s : State) (began : Nat) (bits : BitVec 24), s.settled →
    s.inLink = false ∨ (s.lif.activity ≠ .idle ∧ ∀ own, s.lif.activity ≠ .marker own) →
    exec (.heardMarker began bits) s = .next s) ∧
  ∀ (s : State) (first began : Nat) (bits : BitVec 24), s.settled → s.inLink = true →
    (s.lif.activity = .marker began ∨
      (s.lif.activity = .idle ∧ first = began ∧ s.lif.lastDominant + 20 ≤ began ∧ s.lif.watchesFrom ≤ began ∧
        bits.extractLsb' 8 16 = 0x16CF#16 ∧ ∀ t, s.opensAt t → t < began ∨ began + 24 ≤ t)) →
    s.now ≤ began + 24 → began + 24 ≤ 2 * s.period →
    (markerGood bits = false → exec (.heardMarker first bits) s = .next
      { s with
        rtm := { s.rtm with elapsed := some (began + 24) }
        lif := { s.lif with
          activity := .idle, lastDominant := s.dominantAfter began (bitsOf bits), watchesFrom := began + 24 } }) ∧
    (markerGood bits = true → (bits.extractLsb' 6 2).toNat = s.shapeCode →
      s.rtm.lastMarker = none ∨ s.period ≤ 2 * began →
      ∃ t, exec (.heardMarker first bits) s = .next t ∧ s.opensRound t began) ∧
    (markerGood bits = true → (bits.extractLsb' 6 2).toNat = s.shapeCode → s.rtm.lastMarker.isSome = true →
      2 * began < s.period → exec (.heardMarker first bits) s = .next
      { s with
        rtm := { s.rtm with elapsed := some (began + 24) }
        lif := { s.lif with
          activity := .idle, lastDominant := s.dominantAfter began (bitsOf bits), watchesFrom := began + 24
          markerEarly := min 65535 (s.lif.markerEarly + 1) }
        stc := { s.stc with windowErrors := min 255 (s.stc.windowErrors + 1) } }) ∧
    (markerGood bits = true → (bits.extractLsb' 6 2).toNat ≠ s.shapeCode → s.rtm.strike = false →
      exec (.heardMarker first bits) s = .next
      { s with
        rtm := { s.rtm with elapsed := some (began + 24), strike := true, mismatchSeen := true }
        lif := { s.lif with
          activity := .idle, lastDominant := s.dominantAfter began (bitsOf bits), watchesFrom := began + 24 }
        hpt := { s.hpt with flags := { s.hpt.flags with shapeMismatch := true } } }) ∧
    (markerGood bits = true → (bits.extractLsb' 6 2).toNat ≠ s.shapeCode → s.rtm.strike = true →
      ∃ t, exec (.heardMarker first bits) s = .next t ∧ s.entersFault t .shape ∧
        t.hpt.flags.shapeMismatch = true ∧
        (s.evq.queue.length < 32 →
          { kind := .faultEntered, channel := none, slot := none, station := none, tag := none, detail := 1,
            stamp := s.rtm.counter.setWidth 16 } ∈ t.evq.queue))

/-- E at 2P, and a duplicate-id report taken, put a station in a link state into FAULT (R10, R31, R32, R48, R81): the
map is frozen, no channel is bound, the link stops; the FAULT_ENTERED record stands in the queue if it has a place. The
claim queue is empty, each request of it, WAITING or SENT-WON, having ended with a WITHDRAWN record, cause FAULT, in
queue order, where places are free and the mask chooses it (R81, R83, R166). A report that meets a station a leave has
just taken to READY is taken too (R31); in OFF and in FAULT, where no run has one, it is dropped (log entry 7). When a
cause is taken, that FAULT_ENTERED stands before the records of the channels and of the claim queue, and what the
stopped link's implied state holds are the model's (log entries 6, 10 and 22). -/
def Obligations.FaultsStopTheStation : Prop :=
  ∀ s : State,
    (s.settled → s.inLink = true → ∃ t, exec .lineStuckTimeout s = .next t ∧ s.entersFault t .stuck ∧
      t.hpt.flags.lineStuck = true ∧
      (s.evq.queue.length < 32 →
        { kind := .faultEntered, channel := none, slot := none, station := none, tag := none, detail := 2,
          stamp := s.rtm.counter.setWidth 16 } ∈ t.evq.queue)) ∧
    (s.settled → s.inLink = false → exec .lineStuckTimeout s = .next s) ∧
    (∀ r, s.stc.report = some r → s.inLink = true ∨ s.stc.state = .ready → ∃ t, exec .faultEntry s = .next t ∧
      s.entersFault t .duplicateId ∧
      (s.evq.queue.length < 32 →
        { kind := .faultEntered, channel := none, slot := some r.slot, station := none, tag := some r.tag,
          detail := 3, stamp := s.rtm.counter.setWidth 16 } ∈ t.evq.queue)) ∧
    (s.stc.report = none → exec .faultEntry s = .next s) ∧
    (s.stc.state = .off ∨ s.stc.state = .fault → exec .faultEntry s = .next { s with stc := { s.stc with report := none } })

/-! ## The claim window (section 1.5, chapter 4) -/

/-- As the claim window opens in JOINED or LEAVING, CLE hands LIF the message of the oldest request that may be sent (R70
to R72, R78): requests that are SENT-WON, or CLAIMs in LEAVING or with the band DEGRADED, are passed over unchanged; a
WAITING RELEASE is sent with its slot, a WAITING CLAIM with its slot if that entry is FREE, and for ANY with the lowest
FREE slot. Where no request may be sent LIF sends nothing; a CLAIM whose slot is not FREE ends REFUSED, one for ANY with
no FREE slot ends NO_SLOT (R83), each in queue order, and the walk goes on past it to the next request. In LISTENING LIF
reads the window and sends nothing. -/
def Obligations.OldestSendableRequestIsSent : Prop :=
  ∀ s : State, s.settled → s.rtm.lastMarker.isSome = true → s.lif.activity = .idle → s.lif.opened = 0 → s.now ≤ 80 →
    (s.stc.state = .listening → exec .claimWindowOpen s = .next
      { s with
        rtm := { s.rtm with elapsed := some 80 }
        lif := { s.lif with opened := 1, activity := .window none } }) ∧
    ((s.stc.state = .joined ∨ s.stc.state = .leaving) →
    ∀ (walked : List (ClaimRequest × Option EventRecord)) (post kept : List ClaimRequest) (u : State),
      s.cle.queue = walked.map Prod.fst ++ post →
      (∀ p ∈ walked, match p.2 with
        | none => s.passesOver p.1
        | some outcome => s.endsUnsent p.1 outcome) →
      kept = (walked.filter fun p => p.2.isNone).map Prod.fst →
      (∀ r rest slot, post = r :: rest → s.maySend r slot →
        u = State.postAll
          { s with cle := { queue := kept ++ { r with sentSlot := some slot } :: rest, onLine := some r.channel,
                            lineEnds := none } } (walked.filterMap Prod.snd) →
        exec .claimWindowOpen s = .next
          { u with
            rtm := { s.rtm with elapsed := some 80 }
            lif := { s.lif with
              opened := 1
              activity := .window (some { kind := r.kind, slot, station := s.selfId, tag := r.tag }) } }) ∧
      (post = [] →
        u = State.postAll { s with cle := { queue := kept, onLine := none, lineEnds := none } }
          (walked.filterMap Prod.snd) →
        exec .claimWindowOpen s = .next
          { u with
            rtm := { s.rtm with elapsed := some 80 }
            lif := { s.lif with opened := 1, activity := .window none } }))

/-- The result of a window in which the station sent (R12, R13, R73): with all 27 bits as sent, WON, the request is
SENT-WON and its message is the round's; else LOST, the attempts advance or, at the retry limit, the request ends with
EXPIRED or RELEASE_EXPIRED, and the round's message is the one received, unless its check is bad (one CLAIM_CHECK) or
no station of this shape sends it. Where a CLOSE or a LEAVE was taken while the message was on the line, WON stands and
LOST ends the request WITHDRAWN with that cause (R28, R79, R80; which of the two names it: log entry 17). That the
comparison is of the 27 message bits is the model's reading (log entry 12), and the times LIF keeps are the model's
(log entry 14). -/
def Obligations.WindowResultReachesTheRequest : Prop :=
  ∀ (s : State) (m : ClaimMessage) (line : BitVec 28) (k : TalkId) (r : ClaimRequest),
    s.lif.activity = .window (some m) → s.cle.onLine = some k → s.cle.requestOf k = some r → s.now ≤ 108 →
    (line.extractLsb' 0 27 = m.bits → ∃ t, exec (.claimWindowResult line) s = .next t ∧
      t = { s with
        smap := { s.smap with message := some m, part := .won }
        cle := {
          queue := s.cle.queue.map fun q => if q.channel == k then { q with phase := .sentWon } else q
          onLine := none, lineEnds := none }
        rtm := { s.rtm with elapsed := some 108 }
        lif := { s.lif with activity := .idle, lastDominant := t.lif.lastDominant, watchesFrom := 108 } }) ∧
    (line.extractLsb' 0 27 ≠ m.bits → ∀ u : State,
      u = { s with
        smap := { s.smap with
          part := .lost
          message := if messageGood (line.extractLsb' 0 27) = true then
            handedMessage s.slots (messageOf (line.extractLsb' 0 27)) else none }
        stc := if messageGood (line.extractLsb' 0 27) = true ∨ s.inLink = false then s.stc
          else { s.stc with windowErrors := min 255 (s.stc.windowErrors + 1) }
        rtm := { s.rtm with elapsed := some 108 }
        lif := { s.lif with
          activity := .idle, lastDominant := s.dominantAfter 80 (bitsOf line), watchesFrom := 108
          claimCheck := if messageGood (line.extractLsb' 0 27) = true then s.lif.claimCheck
            else min 65535 (s.lif.claimCheck + 1) } } →
      (s.cle.lineEnds = none → r.attempts + 1 < s.retryLimit → exec (.claimWindowResult line) s = .next
        { u with cle := {
          queue := s.cle.queue.map fun q => if q.channel == k then { q with attempts := q.attempts + 1 } else q
          onLine := none, lineEnds := none } }) ∧
      (∀ cause, s.cle.lineEnds = some cause → exec (.claimWindowResult line) s = .next (State.post
        { u with cle := { queue := s.cle.queue.filter fun q => q.channel != k, onLine := none, lineEnds := none } }
        { kind := .withdrawn, channel := some (talkChannel r.channel), slot := r.slot.orElse fun _ => r.sentSlot,
          station := none, tag := some r.tag, detail := BitVec.ofNat 16 cause.code, stamp := 0 })) ∧
      (s.cle.lineEnds = none → s.retryLimit ≤ r.attempts + 1 → exec (.claimWindowResult line) s = .next (State.post
        { u with cle := { queue := s.cle.queue.filter fun q => q.channel != k, onLine := none, lineEnds := none } }
        (match r.kind with
          | .claim => { kind := .expired, channel := some (talkChannel r.channel), slot := r.sentSlot,
                        station := none, tag := some r.tag, detail := BitVec.ofNat 16 (r.attempts + 1), stamp := 0 }
          | .release => { kind := .releaseExpired, channel := some (talkChannel r.channel), slot := r.slot,
                          station := none, tag := some r.tag, detail := BitVec.ofNat 16 (r.attempts + 1),
                          stamp := 0 })))) ∧
    (∀ q : ClaimMessage, handedMessage s.slots q =
      if q.slot.val < s.slots ∧ ¬ (q.kind = .claim ∧ q.tag = 0) then some q else none)

/-- The result of a window in which the station sent nothing (R13, R18, R20, R35): a recessive start bit is an empty
window, known at its first bit; else a good check gives the round's message and a bad one counts a CLAIM_CHECK. The
Claim Engine gets NOT SENT and has no message on the line. The times LIF keeps are the model's (log entry 14). -/
def Obligations.WindowReadWithoutSending : Prop :=
  ∀ (s : State) (line : BitVec 28), s.lif.activity = .window none → s.cle.onLine = none →
    (line.getLsbD 27 = true → s.now ≤ 81 → exec (.claimWindowResult line) s = .next
      { s with
        smap := { s.smap with message := none, part := .notSent }
        rtm := { s.rtm with elapsed := some 81 }
        lif := { s.lif with activity := .idle } }) ∧
    (line.getLsbD 27 = false → s.now ≤ 108 → messageGood (line.extractLsb' 0 27) = true →
      ∃ t, exec (.claimWindowResult line) s = .next t ∧
      t = { s with
        smap := { s.smap with
          message := handedMessage s.slots (messageOf (line.extractLsb' 0 27)), part := .notSent }
        rtm := { s.rtm with elapsed := some 108 }
        lif := { s.lif with activity := .idle, lastDominant := t.lif.lastDominant, watchesFrom := 108 } }) ∧
    (line.getLsbD 27 = false → s.now ≤ 108 → messageGood (line.extractLsb' 0 27) = false → s.inLink = true →
      ∃ t, exec (.claimWindowResult line) s = .next t ∧
      t = { s with
        smap := { s.smap with message := none, part := .notSent }
        stc := { s.stc with windowErrors := min 255 (s.stc.windowErrors + 1) }
        rtm := { s.rtm with elapsed := some 108 }
        lif := { s.lif with
          activity := .idle, lastDominant := t.lif.lastDominant, watchesFrom := 108
          claimCheck := min 65535 (s.lif.claimCheck + 1) } })

/-! ## The data slots (section 1.6, chapters 6 and 7) -/

/-- The next slot opens and a channel is bound to it (R14, R111): DATA from the front of staging, at most 8 words and not
past the end of a buffer that carries END; FILL in end wait, HALTED or STARVED, and FILL counted late in RUNNING with
nothing staged. The sequence advances modulo 16 and the words stay in staging. -/
def Obligations.OwnSlotSendsOneBurst : Prop :=
  ∀ (s : State) (slot : Slot) (k : TalkId) (recessive : Bool) (tag : Tag) (sequence : BitVec 4),
    (s.stc.state = .joined ∨ s.stc.state = .leaving) → s.rtm.lastMarker.isSome = true → s.lif.activity = .idle →
    s.lif.opened = slot.val + 1 → slot.val < s.slots → s.now ≤ 160 + 320 * slot.val →
    s.talk[k].bound = some slot → (∀ j : TalkId, j < k → s.talk[j].bound ≠ some slot) →
    s.talk[k].tag = some tag → s.talk[k].sequence = some sequence →
    ∀ (kind : BurstKind) (words : List StagedWord) (late : Nat),
      ((kind = .data ∧ s.talk[k].state = .running ∧ s.talk[k].endWait = false ∧ s.talk[k].staging ≠ [] ∧
          late = s.talk[k].lateCount ∧
          ∃ d, heldOf s.talk[k].ring.current = some d ∧
            ((d.final = true ∧ words = s.talk[k].staging.take (min 8 (d.length - s.talk[k].ring.position))) ∨
             (d.final = false ∧ words = s.talk[k].staging.take
              (match heldOf s.talk[k].ring.ahead with
                | some a =>
                  if a.final = true then min 8 (d.length - s.talk[k].ring.position + a.length) else 8
                | none => 8)))) ∨
       (kind = .fill ∧ words = [] ∧ late = s.talk[k].lateCount ∧
          (s.talk[k].endWait = true ∨ s.talk[k].state = .halted ∨ s.talk[k].state = .starved)) ∨
       (kind = .fill ∧ words = [] ∧ late = min 65535 (s.talk[k].lateCount + 1) ∧ s.talk[k].state = .running ∧
          s.talk[k].endWait = false ∧ s.talk[k].staging = [])) →
      exec (.slotOpen recessive) s = .next
        { s with
          talk := s.talk.set k
            { s.talk[k] with sequence := some (sequence + 1), onLine := some words, lateCount := late }
          rtm := { s.rtm with elapsed := some (160 + 320 * slot.val) }
          lif := { s.lif with
            opened := slot.val + 2
            activity := .sending slot
              { owner := s.selfId, tag, kind, sequence, words := words.map StagedWord.word } } }

/-- The next slot opens and the station does not transmit in it, because no channel is bound to it or the station is in
LISTENING (R14, R16, R20): a recessive first bit is SILENT, a dominant one the start of a burst to receive. -/
def Obligations.OtherSlotsAreReceived : Prop :=
  ∀ (s : State) (slot : Slot), s.inLink = true → s.rtm.lastMarker.isSome = true → s.lif.activity = .idle →
    s.lif.opened = slot.val + 1 → slot.val < s.slots → s.now ≤ 160 + 320 * slot.val →
    (s.stc.state = .listening ∨ ∀ k : TalkId, s.talk[k].bound ≠ some slot) →
    exec (.slotOpen true) s = .next
      { s with
        rtm := { s.rtm with elapsed := some (161 + 320 * slot.val) }
        lif := { s.lif with opened := slot.val + 2 }
        smap := { s.smap with observations := s.smap.observations.set slot (some .silent) } } ∧
    exec (.slotOpen false) s = .next
      { s with
        rtm := { s.rtm with elapsed := some (160 + 320 * slot.val) }
        lif := { s.lif with opened := slot.val + 2, activity := .receiving slot } }

/-- The own burst is read back to its last bit (R15, R20, R112, R89, R97, R69, R114): the slot's observation is a
match, with the burst's tag, where every bit of header, words and check agreed, else a mismatch, with the owner and tag
of the burst the readback forms, if its header is well formed, it holds the whole burst and its check is good. The
words leave the front of staging and are counted sent and done, whether or not it matched, and the reads and fetches
then called for are made (R97 step 5, R108); LNE hears the own burst, or on a mismatch the burst the readback forms
(R127); a buffer whose last word they bring is written back OK and passed, and an END buffer sets end wait and in
JOINED queues the RELEASE of the slot. A HELD ahead becomes the current with the words of it that were sent, and a
failure pending on an ahead takes effect as it becomes the current (R96, R97, R101). A completion that leaves count 0
and staging empty, end wait clear, makes the channel STARVED with CHANNEL_STARVED (R113). The report of a FILL changes
only the burst on the line and, RUNNING, brings no more than the current's fetch. A halt held for the burst is taken
after its report (R118): the words and a completion count first, the requests that the rules allow are made (R97 step
5, R108), then the channel is HALTED with the cause, the writeback and the CHANNEL_HALTED of R102. What a readback is
compared with is the model's reading (log entries 13 and 33), and its own are CHANNEL_STARVED's place before LNE's
records of the same event (log entry 10) and that the first held halt counts (log entry 15). -/
def Obligations.SentBurstsAreCountedAndObserved : Prop :=
  (∀ (s : State) (slot : Slot) (sent : Burst) (readback : LineBurst) (k : TalkId) (words : List StagedWord),
    s.burstOut slot sent k words → ∃ t, exec (.burstSent readback) s = .next t ∧
      t.lif.activity = .idle ∧ t.rtm = { s.rtm with elapsed := some (199 + 320 * slot.val + 32 * sent.words.length) } ∧
      t.smap = { s.smap with observations := s.smap.observations.set slot (some
        (if readback.header = sent.line.header ∧ readback.payload.toList.take sent.words.length = sent.words ∧
            readback.check = sent.line.check then .sentMatch sent.tag
          else .sentMismatch ((readbackBurst sent readback).map fun b => (b.owner, b.tag)))) } ∧
      ∃ made, s.hears t slot
          (if readback.header = sent.line.header ∧ readback.payload.toList.take sent.words.length = sent.words ∧
            readback.check = sent.line.check then some sent else readbackBurst sent readback) made ∧
        ∀ r ∈ made, r.channel = some (talkChannel k) ∧ (r.kind = .channelStarved ∨ r.kind = .channelHalted)) ∧
  (∀ (sent b : Burst) (readback : LineBurst) (count : Nat), count = (readback.header.extractLsb' 4 4).toNat →
    (readbackBurst sent readback = some b ↔
      count ≤ 8 ∧ count ≤ sent.words.length ∧ b.tag ≠ 0 ∧ (b.kind = .fill → count = 0) ∧
      b.owner.val = (readback.header.extractLsb' 17 5).toNat ∧ b.tag = readback.header.extractLsb' 9 8 ∧
      (b.kind = .data ↔ readback.header.getLsbD 8 = true) ∧ b.sequence = readback.header.extractLsb' 0 4 ∧
      b.words = readback.payload.toList.take count ∧
      burstCheck (readback.header.extractLsb' 0 22) b.words =
        (if count < sent.words.length then (readback.payload.toList.getD count 0).extractLsb' 16 16
         else readback.check))) ∧
  (∀ (s : State) (slot : Slot) (sent : Burst) (readback : LineBurst) (k : TalkId) (words : List StagedWord)
    (d : Descriptor),
    s.burstOut slot sent k words → s.talk[k].heldHalts = [] → s.talk[k].ring.current = some (.held d) →
    s.talk[k].ring.position + words.length ≤ d.length →
    (s.talk[k].ring.ahead = none ∨ s.talk[k].ring.position + words.length < d.length) →
    ∃ t, exec (.burstSent readback) s = .next t ∧
      t.talk[k].onLine = none ∧ t.talk[k].staging = s.talk[k].staging.drop words.length ∧
      t.talk[k].wordsSent = s.talk[k].wordsSent + BitVec.ofNat 32 words.length ∧
      t.talk[k].bound = some slot ∧ t.talk[k].tag = s.talk[k].tag ∧ t.talk[k].sequence = s.talk[k].sequence ∧
      t.talk[k].lateCount = s.talk[k].lateCount ∧
      (s.talk[k].ring.position + words.length < d.length →
        s.talkAsks t k [] (Talk.due { s.talk[k] with
          onLine := none, staging := s.talk[k].staging.drop words.length
          wordsSent := s.talk[k].wordsSent + BitVec.ofNat 32 words.length
          ring := { s.talk[k].ring with position := s.talk[k].ring.position + words.length } }) ∧
        t.talk[k].ring.position = s.talk[k].ring.position + words.length ∧ t.talk[k].ring.ci = s.talk[k].ring.ci ∧
        t.talk[k].ring.current = some (.held d) ∧ t.talk[k].endWait = s.talk[k].endWait ∧ t.cle = s.cle) ∧
      (s.talk[k].ring.position + words.length = d.length →
        t.talk[k].ring.ci = s.talk[k].ring.ci + 1 ∧ t.talk[k].ring.position = 0 ∧
        t.talk[k].endWait = (s.talk[k].endWait || d.final) ∧
        (∃ later, t.mpt.waiting[talkChannel k] = s.mpt.waiting[talkChannel k] ++
          { purpose := .writeback
            address := s.talk[k].ring.base + BitVec.ofNat 32 (16 * s.talk[k].ring.ci.val) + 8#32
            words := 2, requester := talkChannel k
            data := [completionWord2 .ok d.length, completionWord3 s.stamp none] } :: later) ∧
        (d.final = false → t.cle = s.cle) ∧
        (d.final = true → s.talk[k].closeTaken = false → s.stc.state = .joined → s.cle.holds k = false →
          t.cle = { s.cle with queue := s.cle.queue ++
            [{ kind := .release, channel := k, slot := some slot, tag := s.talk[k].tag.getD 0, attempts := 0,
               sentSlot := none, phase := .waiting }] })) ∧
      (∀ j : TalkId, j ≠ k → t.talk[j] = s.talk[j]) ∧ t.stc = s.stc ∧ t.hpt.mailbox = s.hpt.mailbox ∧
      t.boundary = s.boundary) ∧
  (∀ (s : State) (slot : Slot) (sent : Burst) (readback : LineBurst) (k : TalkId),
    s.burstOut slot sent k [] → s.talk[k].heldHalts = [] → s.talk[k].ring.ahead = none →
    (s.talk[k].ring.current = none →
      s.talk[k].state = .halted ∨
        (s.talk[k].state = .starved ∧ s.talk[k].ring.ci = s.talk[k].ring.fi ∧ s.talk[k].staging = [] ∧
          s.talk[k].endWait = false) →
      ∃ t, exec (.burstSent readback) s = .next t ∧ t.talk[k] = { s.talk[k] with onLine := none } ∧
        t.lif.activity = .idle ∧ t.mpt.waiting[talkChannel k] = s.mpt.waiting[talkChannel k] ∧ t.cle = s.cle ∧
        (∀ j : TalkId, j ≠ k → t.talk[j] = s.talk[j])) ∧
    (s.talk[k].ring.current = none ∨ s.talk[k].ring.current = some .fetching → s.talk[k].state = .running →
      s.talk[k].ring.ci ≠ s.talk[k].ring.fi →
      ∃ t asked, exec (.burstSent readback) s = .next t ∧ t.lif.activity = .idle ∧ t.cle = s.cle ∧
        t.talk[k] = { s.talk[k] with
          onLine := none, ring := { s.talk[k].ring with current := t.talk[k].ring.current }
          requests := t.talk[k].requests } ∧
        (t.talk[k].ring.current = s.talk[k].ring.current ∨ t.talk[k].ring.current = some .fetching) ∧
        t.mpt.waiting[talkChannel k] = s.mpt.waiting[talkChannel k] ++ asked ∧
        (∀ x ∈ asked, x.purpose = .descFetch) ∧ (∀ j : TalkId, j ≠ k → t.talk[j] = s.talk[j]))) ∧
  (∀ (s : State) (slot : Slot) (sent : Burst) (readback : LineBurst) (k : TalkId) (words : List StagedWord)
    (d : Descriptor) (rest : Nat) (writeback : RingIndex → List Word → MemRequest),
    s.burstOut slot sent k words → s.talk[k].heldHalts = [] → s.talk[k].ring.current = some (.held d) →
    s.talk[k].ring.position + words.length = d.length + rest →
    (∀ a, s.talk[k].ring.ahead = some (.held a) → rest < a.length) →
    (∀ index data, writeback index data =
      { purpose := .writeback, address := s.talk[k].ring.base + BitVec.ofNat 32 (16 * index.val) + 8#32,
        words := 2, requester := talkChannel k, data }) →
    ∃ t later, exec (.burstSent readback) s = .next t ∧ t.talk[k].onLine = none ∧ t.talk[k].bound = some slot ∧
      t.talk[k].endWait = (s.talk[k].endWait || d.final) ∧
      t.mpt.waiting[talkChannel k] = s.mpt.waiting[talkChannel k] ++
        writeback s.talk[k].ring.ci [completionWord2 .ok d.length, completionWord3 s.stamp none] :: later ∧
      ((s.talk[k].ring.ahead = none ∧ rest = 0) ∨ (∃ a, s.talk[k].ring.ahead = some (.held a)) →
        s.talkAsks t k [writeback s.talk[k].ring.ci [completionWord2 .ok d.length, completionWord3 s.stamp none]]
          (Talk.due { s.talk[k] with
            onLine := none, staging := s.talk[k].staging.drop words.length
            wordsSent := s.talk[k].wordsSent + BitVec.ofNat 32 words.length
            endWait := s.talk[k].endWait || d.final
            readPoint := if s.talk[k].readPoint.map Prod.fst = some s.talk[k].ring.ci then
              some (s.talk[k].ring.ci + 1, 0) else s.talk[k].readPoint
            requests := s.talk[k].requests ++ [{ purpose := .writeback, stale := false, index := s.talk[k].ring.ci,
                                                 words := 2, ok := true, event := d.event }]
            ring := { s.talk[k].ring with
              ci := s.talk[k].ring.ci + 1, current := s.talk[k].ring.ahead, ahead := none, position := rest } })) ∧
      (∀ a, s.talk[k].ring.ahead = some (.held a) →
        t.talk[k].ring.ci = s.talk[k].ring.ci + 1 ∧ t.talk[k].ring.current = some (.held a) ∧
        t.talk[k].ring.position = rest ∧ t.talk[k].staging = s.talk[k].staging.drop words.length) ∧
      (∀ b, s.talk[k].ring.ahead = some (.bad b) →
        t.talk[k].state = .halted ∧ t.talk[k].haltCause = some .badDescriptor ∧ t.talk[k].staging = [] ∧
        t.talk[k].ring.ci = s.talk[k].ring.ci + 1 ∧ t.talk[k].ring.current = none ∧ t.talk[k].ring.position = 0 ∧
        later = [writeback (s.talk[k].ring.ci + 1) [completionWord2 .bad 0, completionWord3 s.stamp none]] ∧
        s.reports t (haltRecord (talkChannel k) 1)) ∧
      (s.talk[k].ring.ahead = some .fetchError →
        t.talk[k].state = .halted ∧ t.talk[k].haltCause = some .memory ∧ t.talk[k].staging = [] ∧
        t.talk[k].ring.ci = s.talk[k].ring.ci + 1 ∧ t.talk[k].ring.current = none ∧ later = [] ∧
        s.reports t (haltRecord (talkChannel k) (2 + 256 * (s.talk[k].ring.ci + 1).val))) ∧
      (∀ a, s.talk[k].ring.ahead = some (.readError a) →
        t.talk[k].state = .halted ∧ t.talk[k].haltCause = some .memory ∧ t.talk[k].staging = [] ∧
        t.talk[k].ring.ci = s.talk[k].ring.ci + 2 ∧ t.talk[k].ring.current = none ∧ t.talk[k].ring.position = 0 ∧
        later = [writeback (s.talk[k].ring.ci + 1)
          [completionWord2 .memory rest, completionWord3 s.stamp none]] ∧
        s.reports t (haltRecord (talkChannel k) (2 + 256 * (s.talk[k].ring.ci + 1).val))) ∧
      (s.talk[k].ring.ahead = none → s.talk[k].ring.ci + 1 = s.talk[k].ring.fi → s.talk[k].state = .running →
        s.talk[k].staging.length ≤ words.length → s.talk[k].endWait = false → d.final = false →
        t.talk[k].state = .starved ∧ later = [] ∧
        (s.records .channelStarved = true → s.evq.queue.length < 32 → ∃ more, t.evq.queue = s.evq.queue ++
          { kind := .channelStarved, channel := some (talkChannel k), slot := some slot, station := none,
            tag := none, detail := 0, stamp := s.stamp } :: more))) ∧
  (∀ (s : State) (slot : Slot) (sent : Burst) (readback : LineBurst) (k : TalkId) (words : List StagedWord)
    (reason : HaltReason) (more : List HaltReason) (writeback : RingIndex → List Word → MemRequest),
    s.burstOut slot sent k words → s.talk[k].heldHalts = reason :: more →
    s.talk[k].state = .running ∨ s.talk[k].state = .starved →
    (∀ index data, writeback index data =
      { purpose := .writeback, address := s.talk[k].ring.base + BitVec.ofNat 32 (16 * index.val) + 8#32,
        words := 2, requester := talkChannel k, data }) →
    ∀ (ci : RingIndex) (cause : HaltCause) (detail : Nat) (first last : List MemRequest),
      ((∃ d, s.talk[k].ring.current = some (.held d) ∧ s.talk[k].ring.position + words.length < d.length ∧
          ((reason = .dataFailed ∧ detail = 2 + 256 * s.talk[k].ring.ci.val) ∨
            ∃ i, reason = .writebackFailed i ∧ detail = 2 + 256 * i.val) ∧
          ci = s.talk[k].ring.ci + 1 ∧ cause = .memory ∧ first = [] ∧
          last = [writeback s.talk[k].ring.ci
            [completionWord2 .memory (s.talk[k].ring.position + words.length), completionWord3 s.stamp none]]) ∨
        (∃ d i, s.talk[k].ring.current = some (.held d) ∧ reason = .writebackFailed i ∧
          s.talk[k].ring.position + words.length = d.length ∧
          (s.talk[k].ring.ahead = none ∨ s.talk[k].ring.ahead = some .fetching) ∧
          ci = s.talk[k].ring.ci + 1 ∧ cause = .memory ∧ detail = 2 + 256 * i.val ∧ last = [] ∧
          first = [writeback s.talk[k].ring.ci
            [completionWord2 .ok d.length, completionWord3 s.stamp none]]) ∨
        (∃ d a i rest, s.talk[k].ring.current = some (.held d) ∧ s.talk[k].ring.ahead = some (.held a) ∧
          reason = .writebackFailed i ∧ s.talk[k].ring.position + words.length = d.length + rest ∧
          rest < a.length ∧
          ci = s.talk[k].ring.ci + 2 ∧ cause = .memory ∧ detail = 2 + 256 * i.val ∧
          first = [writeback s.talk[k].ring.ci
            [completionWord2 .ok d.length, completionWord3 s.stamp none]] ∧
          last = [writeback (s.talk[k].ring.ci + 1)
            [completionWord2 .memory rest, completionWord3 s.stamp none]]) ∨
        (∃ i, (s.talk[k].ring.current = none ∨ s.talk[k].ring.current = some .fetching) ∧
          reason = .writebackFailed i ∧
          ci = s.talk[k].ring.ci ∧ cause = .memory ∧ detail = 2 + 256 * i.val ∧ first = [] ∧ last = []) ∨
        (∃ b, s.talk[k].ring.current = some (.bad b) ∧ reason = .badDescriptor ∧
          ci = s.talk[k].ring.ci ∧ cause = .badDescriptor ∧ detail = 1 ∧ first = [] ∧
          last = [writeback s.talk[k].ring.ci [completionWord2 .bad 0, completionWord3 s.stamp none]]) ∨
        (s.talk[k].ring.current = some .fetchError ∧ reason = .fetchFailed ∧
          ci = s.talk[k].ring.ci ∧ cause = .memory ∧ detail = 2 + 256 * s.talk[k].ring.ci.val ∧
          first = [] ∧ last = [])) →
      ∃ t asked, exec (.burstSent readback) s = .next t ∧ s.talkHalts t k cause ∧ t.talk[k].ring.ci = ci ∧
        t.talk[k].wordsSent = s.talk[k].wordsSent + BitVec.ofNat 32 words.length ∧
        t.mpt.waiting[talkChannel k] = s.mpt.waiting[talkChannel k] ++ first ++ asked ++ last ∧
        (∀ x ∈ asked, x.purpose ≠ .writeback) ∧ s.reports t (haltRecord (talkChannel k) detail))

/-- A received burst ends (R16, R18, R20, R129): a bad or malformed one is observed BAD, counts one BURST_CHECK and
reaches no channel, and a malformed one is received to the end of the slot, so that no marker is looked for before
(R2); a valid one is observed with its owner and tag, and a RECEIVING channel bound to the slot with the tag and room
for a DATA burst's words takes them all; a STARVED one, or one without room, takes none and its drop episode grows
(R130). What a valid burst does at each listen channel, its SEQUENCE_GAP and the FILL included, is `Listen.take` of it
(R127 to R130). The requests that a listen channel makes, here and wherever it makes any, are all that R93, R98 and R131
call for, one after another: the current's fetch; a write of the oldest waiting words, min(8, waiting, words to the
buffer's end) of them, to the buffer's address + 4 × offset, which moves the write point past them, never past an END
buffer's last word; the ahead's fetch. The order among these, the records' order and the times LIF keeps are the model's
(log entries 10, 11 and 14); the write point that stays at an END buffer's end is its reading (log entry 21). -/
def Obligations.ReceivedBurstsReachTheMapAndTheListeners : Prop :=
  (∀ (ctx : ChannelContext) (l : Listen),
    (Listen.nextRequest ctx l = none → Listen.pump ctx l =
      { chan := l, requests := [], records := [], release := false, done := false }) ∧
    (∀ o, Listen.nextRequest ctx l = some o → Listen.pump ctx l =
      { Listen.pump ctx o.chan with requests := o.requests ++ (Listen.pump ctx o.chan).requests }) ∧
    (¬ l.mayAsk → Listen.nextRequest ctx l = none) ∧
    (l.mayAsk → l.callsCurrent → Listen.nextRequest ctx l = some
      { chan := { l with
          ring := { l.ring with current := some .fetching }
          requests := l.requests ++ [{ purpose := .descFetch, stale := false, index := l.ring.ci, words := 2,
                                       ok := false, event := false }] }
        requests := [{ purpose := .descFetch, address := l.ring.base + BitVec.ofNat 32 (16 * l.ring.ci.val)
                       words := 2, requester := ctx.channel, data := [] }]
        records := [], release := false, done := false }) ∧
    (l.mayAsk → ¬ l.callsCurrent →
      (∀ d index offset n, l.callsWrite d index offset n → Listen.nextRequest ctx l = some
        { chan := { l with
            inWrite := l.inWrite ++ l.waiting.take n, waiting := l.waiting.drop n
            writePoint :=
              if offset + n < d.length ∨ d.final = true then some (index, offset + n)
              else if index = l.ring.ci ∧ (heldOf l.ring.ahead).isSome = true then some (index + 1, 0)
              else none
            requests := l.requests ++ [{ purpose := .dataWrite, stale := false, index, words := n, ok := false,
                                         event := false }] }
          requests := [{ purpose := .dataWrite, address := d.address + BitVec.ofNat 32 (4 * offset), words := n
                         requester := ctx.channel, data := (l.waiting.take n).map DepositWord.word }]
          records := [], release := false, done := false }) ∧
      ((∀ d index offset n, ¬ l.callsWrite d index offset n) →
        (l.callsAhead → Listen.nextRequest ctx l = some
          { chan := { l with
              ring := { l.ring with ahead := some .fetching }
              requests := l.requests ++ [{ purpose := .descFetch, stale := false, index := l.ring.ci + 1, words := 2,
                                           ok := false, event := false }] }
            requests := [{ purpose := .descFetch
                           address := l.ring.base + BitVec.ofNat 32 (16 * (l.ring.ci + 1).val)
                           words := 2, requester := ctx.channel, data := [] }]
            records := [], release := false, done := false }) ∧
        (¬ l.callsAhead → Listen.nextRequest ctx l = none)))) ∧
  (∀ (s : State) (slot : Slot) (l : LineBurst) (b : Burst), s.lif.activity = .receiving slot → l.valid = some b →
    ∃ t, exec (.burstReceived l) s = .next t ∧ s.hears t slot (some b) []) ∧
  ∀ (s : State) (slot : Slot) (l : LineBurst), s.lif.activity = .receiving slot → s.inLink = true →
    s.now ≤ 199 + 320 * slot.val →
    (l.valid = none → ∀ ends, ends = (if l.malformed then 480 + 320 * slot.val else
        199 + 320 * slot.val + 32 * l.count) →
      exec (.burstReceived l) s = .next { s with
        smap := { s.smap with observations := s.smap.observations.set slot (some .bad) }
        stc := { s.stc with windowErrors := min 255 (s.stc.windowErrors + 1) }
        rtm := { s.rtm with elapsed := some ends }
        lif := { s.lif with
          activity := .idle, watchesFrom := ends
          lastDominant := s.dominantAfter (160 + 320 * slot.val)
            (if l.malformed then
              bitsOf l.header ++ l.payload.toList.flatMap bitsOf ++ bitsOf l.check ++ bitsOf l.tail
            else bitsOf l.header ++ (l.payload.toList.take l.count).flatMap bitsOf ++ bitsOf l.check)
          burstCheck := min 65535 (s.lif.burstCheck + 1) } }) ∧
    (l.malformed = true ↔ 8 < l.count ∨ (l.header.getLsbD 8 = false ∧ l.count ≠ 0) ∨
      l.header.extractLsb' 9 8 = 0) ∧
    (∀ b, l.valid = some b → ∃ t, exec (.burstReceived l) s = .next t ∧
      t.smap = { s.smap with observations := s.smap.observations.set slot (some (.valid b.owner b.tag)) } ∧
      t.lif = { s.lif with
        activity := .idle, lastDominant := t.lif.lastDominant
        watchesFrom := 199 + 320 * slot.val + 32 * b.words.length } ∧
      t.rtm = { s.rtm with elapsed := some (199 + 320 * slot.val + 32 * b.words.length) } ∧
      t.stc = s.stc ∧ t.cle = s.cle ∧ t.talk = s.talk ∧ t.hpt.mailbox = s.hpt.mailbox ∧
      t.boundary = s.boundary ∧
      (∀ k : ListenId,
        (s.listen[k].bound ≠ some slot ∨ s.listen[k].tag ≠ some b.tag ∨
          (s.listen[k].state ≠ .receiving ∧ s.listen[k].state ≠ .starved) → t.listen[k] = s.listen[k]) ∧
        (s.listen[k].bound = some slot → s.listen[k].tag = some b.tag → b.kind = .data → b.words ≠ [] →
          (s.listen[k].state = .receiving →
            s.listen[k].inWrite.length + s.listen[k].waiting.length + b.words.length ≤ 16 →
            t.listen[k].wordsReceived = s.listen[k].wordsReceived + BitVec.ofNat 32 b.words.length ∧
            t.listen[k].inWrite ++ t.listen[k].waiting = s.listen[k].inWrite ++ s.listen[k].waiting ++
              b.words.map (fun w => { word := w, sequence := b.sequence }) ∧
            t.listen[k].episode = none ∧ t.listen[k].expected = some (b.sequence + 1) ∧
            s.listenAsks t k [] { s.listen[k] with
              expected := some (b.sequence + 1), episode := none
              waiting := s.listen[k].waiting ++ b.words.map fun w => { word := w, sequence := b.sequence }
              wordsReceived := s.listen[k].wordsReceived + BitVec.ofNat 32 b.words.length }) ∧
          ((s.listen[k].state = .receiving ∧
              16 < s.listen[k].inWrite.length + s.listen[k].waiting.length + b.words.length) ∨
            s.listen[k].state = .starved →
            t.listen[k] = { s.listen[k] with
              expected := some (b.sequence + 1)
              episode := some {
                words := min 65535 ((s.listen[k].episode.map Episode.words).getD 0 + b.words.length), slot } }))))

/-- The sequence check (R128): for every burst of its slot and tag, a RECEIVING or STARVED channel expects the burst's
sequence + 1 next, and reports SEQUENCE_GAP with (sequence − expected) mod 16 exactly where an expected sequence was
present and differs; FILL, and DATA with no words, have no further effect. That every burst handed to LNE reaches each
listen channel by `Listen.take` is said with the bursts that are received and sent. -/
def Obligations.SequenceIsChecked : Prop :=
  ∀ (ctx : ChannelContext) (slot : Slot) (b : Burst) (l : Listen), l.bound = some slot → l.tag = some b.tag →
    (l.state = .receiving ∨ l.state = .starved) →
    (Listen.take ctx slot b l).chan.expected = some (b.sequence + 1) ∧
    (∀ q, l.expected = some q → q ≠ b.sequence → (Listen.take ctx slot b l).records.head? = some
      { kind := .sequenceGap, channel := some ctx.channel, slot := some slot, station := some b.owner,
        tag := some b.tag, detail := (b.sequence - q).setWidth 16, stamp := 0 } ∧
      EventKind.sequenceGap.cls = .trouble ∧ 1 ≤ ((b.sequence - q).setWidth 16 : BitVec 16).toNat ∧
      ((b.sequence - q).setWidth 16 : BitVec 16).toNat ≤ 15) ∧
    (l.expected = none ∨ l.expected = some b.sequence →
      ∀ r ∈ (Listen.take ctx slot b l).records, r.kind ≠ .sequenceGap) ∧
    (b.kind = .fill ∨ b.words = [] →
      (Listen.take ctx slot b l).chan = { l with expected := some (b.sequence + 1) } ∧
      (Listen.take ctx slot b l).requests = [] ∧ (Listen.take ctx slot b l).release = false ∧
      (Listen.take ctx slot b l).done = false)

/-! ## The map at a boundary (chapter 3) -/

/-- SMAP's boundary work (R8, R47, R48, R62): the lowest valid burst with the station's own id in a slot where it did
not transmit is reported to STC, and nothing else is done; with no such burst the six steps are taken at each used
slot, 0 to N−1 in turn, and then the round record and the abandon set are emptied, the stamp is the boundary's, unused
entries stay, and the settled notice goes to CLE, TKE and LNE. The entries, the channels and the records are those that
the steps leave. With no boundary waiting nothing happens. That each block's share waits separately is the model's (log
entry 4). -/
def Obligations.SlotMapWorkScansThenSettles : Prop :=
  ∀ s : State,
    (s.boundary.slotMap = false → exec .slotMapBoundaryWork s = .next s) ∧
    (s.boundary.slotMap = true →
      (∀ (slot : Slot) (tag : Tag), slot.val < s.slots →
        s.smap.observations[slot] = some (.valid s.selfId tag) →
        (∀ (j : Slot) (other : Tag), j < slot → s.smap.observations[j] ≠ some (.valid s.selfId other)) →
        exec .slotMapBoundaryWork s = .next
          { s with
            boundary := { s.boundary with slotMap := false }
            stc := { s.stc with report := some { slot, tag } } }) ∧
      ((∀ (j : Slot) (tag : Tag), j.val < s.slots → s.smap.observations[j] ≠ some (.valid s.selfId tag)) →
        ∃ t, exec .slotMapBoundaryWork s = .next t ∧
          t.boundary = { s.boundary with slotMap := false, claims := true, talk := true, listen := true } ∧
          t.smap = { s.smap with
            entries := t.smap.entries, observations := Vector.replicate 32 none, message := none,
            part := .notSent, abandon := [], stamp := s.rtm.counter.setWidth 16 } ∧
          (∀ i : Slot, s.slots ≤ i.val → t.smap.entries[i] = s.smap.entries[i]) ∧
          (∀ u : State,
            u = ((List.finRange 32).filter fun i => decide (i.val < s.slots)).foldl State.slotStep
              { s with boundary := { s.boundary with slotMap := false } } →
            t.smap.entries = u.smap.entries ∧ t.talk = u.talk ∧ t.evq = u.evq ∧ t.mpt = u.mpt ∧ t.hpt = u.hpt) ∧
          t.stc = s.stc ∧ t.rtm = s.rtm ∧ t.lif = s.lif ∧ t.cle = s.cle ∧ t.listen = s.listen ∧
          t.hpt.mailbox = s.hpt.mailbox ∧ t.rstHeld = s.rstHeld ∧ t.pending = s.pending)) ∧
    (∀ slot : Slot, s.slotStep slot =
      (((((s.evidenceStep slot).silenceStep slot).ownStep slot).claimStep slot).abandonStep slot).countdownStep slot
        s.smap.entries[slot])

/-- Step 1 (R49 to R51), for a slot with a valid burst from X with tag t: a FREE or QUARANTINE entry becomes OWNED(X, t);
the recorded owner is heard; a second station becomes the rival and a peer's silent count advances as in a silent round,
or the entry expires; the same rival again replaces the owner, and an own slot is then lost (R52). The slot's valid burst
is the observed one, or in a slot the station transmitted in its own burst where the readback matched, and else the valid
burst that the readback is, if it is one (R43). -/
def Obligations.EvidenceChangesTheEntry : Prop :=
  (∀ (s : State) (slot : Slot),
    (s.smap.observations[slot] = none ∨ s.smap.observations[slot] = some .silent ∨
      s.smap.observations[slot] = some .bad → s.evidence slot = none) ∧
    (∀ x t, s.smap.observations[slot] = some (.valid x t) → s.evidence slot = some (x, t)) ∧
    (∀ t, s.smap.observations[slot] = some (.sentMatch t) → s.evidence slot = some (s.selfId, t)) ∧
    (∀ heard, s.smap.observations[slot] = some (.sentMismatch heard) → s.evidence slot = heard)) ∧
  ∀ (s : State) (slot : Slot) (x : StationId) (t : Tag), s.evidence slot = some (x, t) →
    ((s.smap.entries[slot] = .free ∨ ∃ n, s.smap.entries[slot] = .quarantine n) →
      s.evidenceStep slot = s.setEntry slot (if x = s.selfId then .own t none 0 else .peer x t 0 none)) ∧
    (∀ y tag silent rival, s.smap.entries[slot] = .peer y tag silent rival →
      (y = x → s.evidenceStep slot = s.setEntry slot (.peer x t 0 none)) ∧
      (y ≠ x → rival = some x → x ≠ s.selfId → s.evidenceStep slot = s.setEntry slot (.peer x t 0 none)) ∧
      (y ≠ x → rival ≠ some x → silent < 7 →
        s.evidenceStep slot = s.setEntry slot (.peer y tag (silent + 1) (some x))) ∧
      (y ≠ x → rival ≠ some x → silent = 7 → s.evidenceStep slot = s.setEntry slot .free)) ∧
    (∀ tag rival mismatches, s.smap.entries[slot] = .own tag rival mismatches →
      (x = s.selfId → s.evidenceStep slot = s.setEntry slot (.own tag none mismatches)) ∧
      (x ≠ s.selfId → rival ≠ some x → s.evidenceStep slot = s.setEntry slot (.own tag (some x) mismatches)) ∧
      (x ≠ s.selfId → rival = some x →
        s.evidenceStep slot = (s.setEntry slot (.peer x t 0 none)).slotLost slot .taken (some x)))

/-- Step 2 (R53) and step 3 (R54, R55): a silent round advances a peer's silent count and clears its rival, and the
eighth frees the entry with no record; an own slot without evidence loses its rival; its monitor result clears, sets or
leaves the mismatch count, and a second mismatch yields the slot to QUARANTINE for 8 rounds. -/
def Obligations.SilenceAndMonitorChangeTheEntry : Prop :=
  ∀ (s : State) (slot : Slot),
    (∀ owner tag silent rival, s.smap.entries[slot] = .peer owner tag silent rival → s.evidence slot = none →
      s.silenceStep slot =
        s.setEntry slot (if silent + 1 < 8 then .peer owner tag (silent + 1) none else .free)) ∧
    (s.evidence slot ≠ none → s.silenceStep slot = s) ∧
    (∀ tag rival mismatches kept, s.smap.entries[slot] = .own tag rival mismatches →
      kept = (if s.evidence slot = none then none else rival) →
      s.silenceStep slot = s ∧
      (∀ own, s.smap.observations[slot] = some (.sentMatch own) →
        s.ownStep slot = s.setEntry slot (.own tag kept 0)) ∧
      (∀ heard, s.smap.observations[slot] = some (.sentMismatch heard) → mismatches = 0 →
        s.ownStep slot = s.setEntry slot (.own tag kept 1)) ∧
      (∀ heard, s.smap.observations[slot] = some (.sentMismatch heard) → mismatches = 1 →
        s.ownStep slot = (s.setEntry slot (.quarantine 8)).slotLost slot .collision none) ∧
      ((∀ own, s.smap.observations[slot] ≠ some (.sentMatch own)) →
        (∀ heard, s.smap.observations[slot] ≠ some (.sentMismatch heard)) →
        s.ownStep slot = s.setEntry slot (.own tag kept mismatches)))

/-- Step 4 (R56 to R59): a peer's CLAIM is applied to a FREE entry without evidence and refused elsewhere; an own CLAIM
that won binds the claiming channel, ARMED or HALTED and not bound as R110 has it, or quarantines the slot if a CLOSE has
been taken for it; a message with the own id
that did not win is not applied; a RELEASE frees its sender's entry and unbinds an own channel. -/
def Obligations.ClaimMessageChangesTheEntry : Prop :=
  ∀ (s : State) (slot : Slot) (m : ClaimMessage), s.smap.message = some m → m.slot = slot →
    (m.station = s.selfId → s.smap.part ≠ .won → s.claimStep slot = s) ∧
    (m.kind = .claim → (s.smap.entries[slot] ≠ .free ∨ s.evidence slot ≠ none) → s.claimStep slot = s) ∧
    (m.kind = .claim → s.smap.entries[slot] = .free → s.evidence slot = none →
      (m.station ≠ s.selfId → s.claimStep slot = s.setEntry slot (.peer m.station m.tag 0 none)) ∧
      (m.station = s.selfId → s.smap.part = .won →
        ∀ r ∈ s.cle.queue, r.kind = .claim → r.phase = .sentWon →
          (∀ q ∈ s.cle.queue, q.phase = .sentWon → q.channel = r.channel) →
          (s.talk[r.channel].closeTaken = true → s.claimStep slot = s.setEntry slot (.quarantine 8)) ∧
          (s.talk[r.channel].closeTaken = false → s.talk[r.channel].bound = none →
            s.talk[r.channel].state = .armed ∨ s.talk[r.channel].state = .halted →
            (s.claimStep slot).smap.entries[slot] = .own m.tag none 0 ∧
            (s.claimStep slot).talk[r.channel].bound = some slot ∧
            (s.claimStep slot).talk[r.channel].sequence = some 0 ∧
            (s.talk[r.channel].state = .halted → (s.claimStep slot).talk[r.channel].state = .halted) ∧
            (s.talk[r.channel].state = .armed → s.talk[r.channel].endWait = false →
              (s.claimStep slot).talk[r.channel].state =
                if s.talk[r.channel].ring.ci ≠ s.talk[r.channel].ring.fi ∨ s.talk[r.channel].staging ≠ []
                then .running else .starved) ∧
            (s.claimStep slot).talk[r.channel].ring = s.talk[r.channel].ring ∧
            (s.claimStep slot).talk[r.channel].staging = s.talk[r.channel].staging))) ∧
    (m.kind = .release → m.station ≠ s.selfId →
      (∀ tag silent rival, s.smap.entries[slot] = .peer m.station tag silent rival →
        s.claimStep slot = s.setEntry slot .free) ∧
      ((∀ tag silent rival, s.smap.entries[slot] ≠ .peer m.station tag silent rival) →
        s.claimStep slot = s)) ∧
    (m.kind = .release → m.station = s.selfId → s.smap.part = .won →
      ∀ tag rival mismatches (k : TalkId), s.smap.entries[slot] = .own tag rival mismatches →
        s.talk[k].bound = some slot → (∀ j : TalkId, j ≠ k → s.talk[j].bound ≠ some slot) →
        s.claimStep slot = (s.setEntry slot .free).setTalk k
          { s.talk[k] with
            bound := none, sequence := none, endWait := false
            state := if s.talk[k].state = .running ∨ s.talk[k].state = .starved then .armed
              else s.talk[k].state })

/-- Steps 5 and 6 (R60, R61): a slot of the abandon set that is still OWNED by the station goes to QUARANTINE for 8
rounds and its closing channel is unbound, any other is left as it is; a QUARANTINE entry that no earlier step changed
counts down and becomes FREE at 0. One put there at this boundary does not: by step 3 for a second mismatch (R55), by
step 4 for the won CLAIM of a closing channel (R57), or by step 5 for an abandon (R60), it leaves the six steps at 8. -/
def Obligations.AbandonAndQuarantineChangeTheEntry : Prop :=
  ∀ (s : State) (slot : Slot),
    (slot ∈ s.smap.abandon → ∀ tag rival mismatches (k : TalkId), s.smap.entries[slot] = .own tag rival mismatches →
      s.talk[k].bound = some slot → (∀ j : TalkId, j ≠ k → s.talk[j].bound ≠ some slot) →
      s.abandonStep slot = (s.setEntry slot (.quarantine 8)).setTalk k
        { s.talk[k] with
          bound := none, sequence := none, endWait := false
          state := if s.talk[k].state = .running ∨ s.talk[k].state = .starved then .armed
            else s.talk[k].state }) ∧
    ((slot ∉ s.smap.abandon ∨ ∀ tag rival mismatches, s.smap.entries[slot] ≠ .own tag rival mismatches) →
      s.abandonStep slot = s) ∧
    (∀ n, s.smap.entries[slot] = .quarantine n → s.evidence slot = none → 1 ≤ n →
      s.slotStep slot = s.setEntry slot (if n = 1 then .free else .quarantine (n - 1))) ∧
    (∀ tag mismatches heard, s.smap.entries[slot] = .own tag none mismatches → mismatches = 1 →
      s.smap.observations[slot] = some (.sentMismatch heard) → heard = none →
      (s.slotStep slot).smap.entries[slot] = .quarantine 8) ∧
    (∀ (u : State) tag rival mismatches heard, u = (s.evidenceStep slot).silenceStep slot →
      u.smap.entries[slot] = .own tag rival mismatches → 1 ≤ mismatches →
      s.smap.observations[slot] = some (.sentMismatch heard) →
      (s.slotStep slot).smap.entries[slot] = .quarantine 8) ∧
    (∀ (u : State) tag rival mismatches,
      u = (((s.evidenceStep slot).silenceStep slot).ownStep slot).claimStep slot →
      u.smap.entries[slot] = .own tag rival mismatches → slot ∈ s.smap.abandon →
      (s.slotStep slot).smap.entries[slot] = .quarantine 8) ∧
    (∀ tag rival mismatches own, s.smap.entries[slot] = .own tag rival mismatches → slot ∈ s.smap.abandon →
      s.smap.observations[slot] = some (.sentMatch own) → s.smap.message = none →
      (s.slotStep slot).smap.entries[slot] = .quarantine 8) ∧
    (∀ m r, s.smap.message = some m → m.kind = .claim → m.slot = slot → m.station = s.selfId → s.smap.part = .won →
      s.smap.entries[slot] = .free → s.evidence slot = none → r ∈ s.cle.queue → r.kind = .claim →
      r.phase = .sentWon → (∀ q ∈ s.cle.queue, q.phase = .sentWon → q.channel = r.channel) →
      s.talk[r.channel].closeTaken = true → (s.slotStep slot).smap.entries[slot] = .quarantine 8)

/-- The rewind of a RUNNING or STARVED channel that loses its slot (R104, R116, R117): nothing is staged or on the
line, CI, FI and position stay, the current stays taken and the ahead is dropped, every old fetch and data read is
stale, the channel is ARMED and unbound, a current in FETCHING is fetched again at once, and no buffer is written back;
the read point is the current's word at position, from which it stages again, its first read being of that word, and
the ahead may be fetched afresh. A HALTED channel is only unbound. The requests that a talk channel makes, here and
wherever it makes any, are all that R93, R98 and R108 call for, one after another: the current's fetch; a read of
min(8, words to the buffer's end) words at the buffer's address + 4 × offset, which moves the read point past them,
exactly while they fit in staging; the ahead's fetch; the order among these is the model's (log entry 11). Where the
map loses a slot that a channel is bound to (R52, R55), that channel alone loses it so, and one SLOT_LOST names the
channel, the slot, the new owner if one took it, the channel's tag and the cause. -/
def Obligations.LosingTheSlotRewinds : Prop :=
  (∀ (s t : State) (slot : Slot) (k : TalkId) (cause : LossCause) (station : Option StationId) (o : Out Talk),
    s.talk[k].bound = some slot → (∀ j : TalkId, j ≠ k → s.talk[j].bound ≠ some slot) →
    o = Talk.loseSlot { channel := talkChannel k, stamp := s.stamp } s.talk[k] →
    t = s.slotLost slot cause station →
    t.talk = s.talk.set k o.chan ∧ t.evq = (s.post
      { kind := .slotLost, channel := some (talkChannel k), slot := some slot, station, tag := s.talk[k].tag,
        detail := (match cause with | .taken => 1 | .collision => 2), stamp := 0 }).evq ∧
    t.mpt = { s.mpt with
      waiting := s.mpt.waiting.set (talkChannel k) (s.mpt.waiting[talkChannel k] ++ o.requests) } ∧
    t.smap = s.smap ∧ t.cle = s.cle ∧ t.listen = s.listen ∧ t.stc = s.stc ∧ t.boundary = s.boundary ∧
    t.hpt.mailbox = s.hpt.mailbox) ∧
  (∀ (ctx : ChannelContext) (t : Talk),
    (Talk.nextRequest ctx t = none → Talk.pump ctx t =
      { chan := t, requests := [], records := [], release := false, done := false }) ∧
    (∀ o, Talk.nextRequest ctx t = some o → Talk.pump ctx t =
      { Talk.pump ctx o.chan with requests := o.requests ++ (Talk.pump ctx o.chan).requests }) ∧
    (¬ t.mayAsk → Talk.nextRequest ctx t = none) ∧
    (t.mayAsk → t.callsCurrent → Talk.nextRequest ctx t = some
      { chan := { t with
          ring := { t.ring with current := some .fetching }
          requests := t.requests ++ [{ purpose := .descFetch, stale := false, index := t.ring.ci, words := 2,
                                       ok := false, event := false }] }
        requests := [{ purpose := .descFetch, address := t.ring.base + BitVec.ofNat 32 (16 * t.ring.ci.val)
                       words := 2, requester := ctx.channel, data := [] }]
        records := [], release := false, done := false }) ∧
    (t.mayAsk → ¬ t.callsCurrent →
      (∀ d index offset n, t.callsRead d index offset n → Talk.nextRequest ctx t = some
        { chan := { t with
            readPoint := if offset + n = d.length then some (index + 1, 0) else some (index, offset + n)
            requests := t.requests ++ [{ purpose := .dataRead, stale := t.heldHalts.contains .dataFailed, index,
                                         words := n, ok := false, event := false }] }
          requests := [{ purpose := .dataRead, address := d.address + BitVec.ofNat 32 (4 * offset), words := n
                         requester := ctx.channel, data := [] }]
          records := [], release := false, done := false }) ∧
      ((∀ d index offset n, ¬ t.callsRead d index offset n) →
        (t.callsAhead → Talk.nextRequest ctx t = some
          { chan := { t with
              ring := { t.ring with ahead := some .fetching }
              requests := t.requests ++ [{ purpose := .descFetch, stale := false, index := t.ring.ci + 1, words := 2,
                                           ok := false, event := false }] }
            requests := [{ purpose := .descFetch
                           address := t.ring.base + BitVec.ofNat 32 (16 * (t.ring.ci + 1).val)
                           words := 2, requester := ctx.channel, data := [] }]
            records := [], release := false, done := false }) ∧
        (¬ t.callsAhead → Talk.nextRequest ctx t = none)))) ∧
  ∀ (ctx : ChannelContext) (t : Talk),
    ((t.state = .running ∨ t.state = .starved) → ∃ u, u = Talk.loseSlot ctx t ∧
      u.chan.staging = [] ∧ u.chan.onLine = none ∧ u.chan.bound = none ∧ u.chan.sequence = none ∧
      u.chan.endWait = false ∧ u.chan.state = .armed ∧ u.chan.tag = t.tag ∧ u.chan.wordsSent = t.wordsSent ∧
      u.chan.ring.ci = t.ring.ci ∧ u.chan.ring.fi = t.ring.fi ∧ u.chan.ring.position = t.ring.position ∧
      (t.ring.current.isSome = true → u.chan.ring.current = t.ring.current) ∧
      u.records = [] ∧ u.release = false ∧ u.done = false ∧
      u = Talk.pump ctx { t with
        staging := [], onLine := none, bound := none, sequence := none, endWait := false, heldHalts := []
        state := .armed, ring := { t.ring with ahead := none }
        readPoint := if t.ring.current = none then none else some (t.ring.ci, t.ring.position)
        requests := t.requests.map fun e => { e with stale := e.stale || e.purpose != .writeback } } ∧
      (∀ d, t.ring.current = some (.held d) → t.ring.position < d.length → t.requests.length < 16 →
        u.requests.head? = some
          { purpose := .dataRead, address := d.address + BitVec.ofNat 32 (4 * t.ring.position)
            words := min 8 (d.length - t.ring.position), requester := ctx.channel, data := [] }) ∧
      (∃ later, u.chan.requests = (t.requests.map fun e => { e with stale := e.stale || e.purpose != .writeback }) ++
        later ∧ later.length = u.requests.length ∧
        (∀ e ∈ later, e.stale = false ∧ (e.purpose = .descFetch ∨ e.purpose = .dataRead)) ∧
        (u.chan.ring.ahead = none ∨ (u.chan.ring.ahead = some .fetching ∧
          ∃ e ∈ later, e.purpose = .descFetch ∧ e.index = t.ring.ci + 1)) ∧
        (t.ring.current = some .fetching → t.requests.length < 16 → ∃ e es, later = e :: es ∧
          e.purpose = .descFetch ∧ e.index = t.ring.ci))) ∧
    (t.state = .halted → Talk.loseSlot ctx t =
      { chan := { t with bound := none, sequence := none, endWait := false }, requests := [], records := [],
        release := false, done := false })

/-! ## Boundary work of CLE, TKE, LNE and STC -/

/-- CLE on the settled notice (R74 to R77, R83): a SENT-WON CLAIM, for a slot or for ANY, is GRANTED where its sent
slot is OWNED by the station with the channel bound, WITHDRAWN (CLOSED) where the slot is in QUARANTINE, else REFUSED
(CONTESTED) with a peer's owner named; a SENT-WON RELEASE is RELEASED; a WAITING RELEASE whose channel is no longer
bound to its slot is WITHDRAWN (SLOT_LOST), any other WAITING request stays in its place. The outcomes of the SENT-WON
requests come first, then the withdrawals, each in queue order. Without the notice nothing happens. That every
QUARANTINE counts as the one of R57 is the model's (log entry 26). -/
def Obligations.ClaimSettleDecidesTheOutcome : Prop :=
  ∀ s : State,
    (s.boundary.claims = false → exec .claimSettle s = .next s) ∧
    (s.boundary.claims = true → s.claimsDistinct → ∀ settled : List (ClaimRequest × Option EventRecord),
      s.cle.queue = settled.map Prod.fst →
      (∀ p ∈ settled, (∃ outcome, p.2 = some outcome ∧ s.settlesWon p.1 outcome) ∨ s.settlesWaiting p.1 p.2) →
      exec .claimSettle s = .next (State.postAll
        { s with
          boundary := { s.boundary with claims := false }
          cle := { s.cle with queue := (settled.filter fun p => p.2.isNone).map Prod.fst } }
        ((settled.filter fun p => p.1.phase == .sentWon).filterMap Prod.snd ++
          (settled.filter fun p => p.1.phase == .waiting).filterMap Prod.snd)))

/-- TKE on the settled notice (R103, R104, R118, R120): an unbound channel with close taken is CLOSED by the steps of
R120: nothing staged, on the line, bound or taken, its fetches and data reads stale, ring base and FI kept; a current
HELD with words done is written back PARTIAL with them and CI passes it, otherwise CI stays and nothing is asked for;
the mailbox shows DONE. A bound one waits; a waiting RESUME leaves HALTED for the state of the binding; every other
channel, the map, the claim queue and the listeners stay, and a CLOSE posts no record. Without the notice nothing
happens. -/
def Obligations.TalkBoundaryWorkClosesAndResumes : Prop :=
  ∀ s : State,
    (s.boundary.talk = false → exec .talkBoundaryWork s = .next s) ∧
    (s.boundary.talk = true → ∃ t, exec .talkBoundaryWork s = .next t ∧
      t.boundary = { s.boundary with talk := false } ∧
      (∀ k : TalkId,
        (s.talk[k].resumeWaits = false → s.talk[k].closeTaken = false ∨ s.talk[k].bound.isSome = true →
          t.talk[k] = s.talk[k] ∧ t.mpt.waiting[talkChannel k] = s.mpt.waiting[talkChannel k]) ∧
        (s.talk[k].resumeWaits = false → s.talk[k].closeTaken = true → s.talk[k].bound = none →
          t.talk[k].state = .closed ∧ t.talk[k].tag = none ∧ t.talk[k].bound = none ∧ t.talk[k].staging = [] ∧
          t.talk[k].onLine = none ∧ t.talk[k].readPoint = none ∧ t.talk[k].sequence = none ∧
          t.talk[k].haltCause = none ∧ t.talk[k].endWait = false ∧ t.talk[k].closeTaken = false ∧
          t.talk[k].ring.current = none ∧ t.talk[k].ring.ahead = none ∧ t.talk[k].ring.position = 0 ∧
          t.talk[k].ring.base = s.talk[k].ring.base ∧ t.talk[k].ring.fi = s.talk[k].ring.fi ∧
          t.talk[k].wordsSent = s.talk[k].wordsSent ∧ t.talk[k].lateCount = s.talk[k].lateCount ∧
          (∀ marked, marked = (s.talk[k].requests.map fun e =>
              { e with stale := e.stale || e.purpose != .writeback }) →
            (∀ d, heldOf s.talk[k].ring.current = some d → 0 < s.talk[k].ring.position →
              t.talk[k].ring.ci = s.talk[k].ring.ci + 1 ∧
              t.talk[k].requests = marked ++ [{ purpose := .writeback, stale := false, index := s.talk[k].ring.ci,
                                                words := 2, ok := false, event := d.event }] ∧
              t.mpt.waiting[talkChannel k] = s.mpt.waiting[talkChannel k] ++
                [{ purpose := .writeback
                   address := s.talk[k].ring.base + BitVec.ofNat 32 (16 * s.talk[k].ring.ci.val) + 8#32
                   words := 2, requester := talkChannel k
                   data := [completionWord2 .partialUse s.talk[k].ring.position, completionWord3 s.stamp none] }]) ∧
            (heldOf s.talk[k].ring.current = none ∨ s.talk[k].ring.position = 0 →
              t.talk[k].ring.ci = s.talk[k].ring.ci ∧ t.talk[k].requests = marked ∧
              t.mpt.waiting[talkChannel k] = s.mpt.waiting[talkChannel k])) ∧
          (∀ code, s.hpt.mailbox = .busy code → t.hpt.mailbox = .done .ok code)) ∧
        (s.talk[k].resumeWaits = true → s.talk[k].closeTaken = false → s.talk[k].state = .halted →
          s.talkAsks t k []
            (Talk.due { s.talk[k] with state := .armed, haltCause := none, resumeWaits := false }) ∧
          t.talk[k].haltCause = none ∧ t.talk[k].bound = s.talk[k].bound ∧ t.talk[k].resumeWaits = false ∧
          t.talk[k].state =
            (if s.talk[k].bound = none then .armed
             else if s.talk[k].ring.ci ≠ s.talk[k].ring.fi ∨ s.talk[k].staging ≠ [] ∨ s.talk[k].endWait = true
             then .running else .starved) ∧
          (∀ code, s.hpt.mailbox = .busy code → t.hpt.mailbox = .done .ok code))) ∧
      (∀ k : ListenId, t.mpt.waiting[listenChannel k] = s.mpt.waiting[listenChannel k]) ∧
      t.mpt.outstanding = s.mpt.outstanding ∧
      ((∀ k : TalkId, s.talk[k].resumeWaits = false) → t.evq = s.evq) ∧
      t.smap = s.smap ∧ t.cle = s.cle ∧ t.listen = s.listen ∧ t.stc = s.stc ∧ t.rtm = s.rtm ∧ t.lif = s.lif)

/-- LNE on the settled notice (R125, R126, R135, R137, R138): a RESUME that waits leaves HALTED and the mailbox shows
DONE; a CLOSE taken is applied, and completes where no data write is outstanding, no fetch coming before (log entry
16); an open channel whose close is none is then bound to the lowest slot OWNED with its tag, with the expected
sequence absent where the slot is new, and unbound where there is none; it is RECEIVING with a count, STARVED without
one, WAITING unbound, and HALTED as long as it is HALTED. A new slot makes STREAM_BOUND with its owner, a lost one
STREAM_GONE with the old slot, and the first of two slots or more with the tag DUPLICATE_TAG with their number, once.
Without the notice nothing happens. The order of two records of one channel, STREAM_BOUND before CHANNEL_STARVED,
STREAM_GONE before DROP_EPISODE and DUPLICATE_TAG last, is the model's (log entry 10). -/
def Obligations.ListenBoundaryWorkResolvesTheTag : Prop :=
  (∀ s : State,
    (s.boundary.listen = false → exec .listenBoundaryWork s = .next s) ∧
    (s.boundary.listen = true → ∃ t, exec .listenBoundaryWork s = .next t ∧
      t.boundary = { s.boundary with listen := false } ∧
      (∀ (k : ListenId) (tag : Tag), s.listen[k].tag = some tag → s.listen[k].state ≠ .closed →
        s.listen[k].close = .none → s.listen[k].resumeWaits = false →
        (∀ slot : Slot, s.smap.entries[slot].tagOf = some tag →
          (∀ j : Slot, j < slot → s.smap.entries[j].tagOf ≠ some tag) →
          t.listen[k].bound = some slot ∧
          (s.listen[k].bound = some slot → t.listen[k].expected = s.listen[k].expected ∧
            t.listen[k].state = s.listen[k].state) ∧
          (s.listen[k].bound ≠ some slot → t.listen[k].expected = none ∧
            t.listen[k].state = (if s.listen[k].state = .halted then .halted
              else if s.listen[k].ring.ci ≠ s.listen[k].ring.fi then .receiving else .starved))) ∧
        ((∀ j : Slot, s.smap.entries[j].tagOf ≠ some tag) → t.listen[k].bound = none ∧
          (s.listen[k].bound.isSome = true → t.listen[k].expected = none ∧
            t.listen[k].state = (if s.listen[k].state = .halted then .halted else .waiting))) ∧
        t.listen[k].inWrite = s.listen[k].inWrite ∧ t.listen[k].waiting = s.listen[k].waiting ∧
        t.listen[k].ring = s.listen[k].ring ∧
        t.mpt.waiting[listenChannel k] = s.mpt.waiting[listenChannel k]) ∧
      (∀ k : ListenId, s.listen[k].resumeWaits = false →
        s.listen[k].close = .applied ∨ (s.listen[k].state = .closed ∧ s.listen[k].close = .none) →
        t.listen[k] = s.listen[k]) ∧
      (∀ (k : ListenId) (tag : Tag), s.listen[k].tag = some tag → s.listen[k].state = .halted →
        s.listen[k].close = .none → s.listen[k].resumeWaits = true →
        t.mpt.waiting[listenChannel k] = s.mpt.waiting[listenChannel k] ++
          (Listen.pump { channel := listenChannel k, stamp := s.stamp }
            { s.listen[k] with state := .waiting, haltCause := none, bound := none, resumeWaits := false }).requests ∧
        t.listen[k].haltCause = none ∧ t.listen[k].resumeWaits = false ∧
        t.listen[k].ring.ci = s.listen[k].ring.ci ∧ t.listen[k].ring.fi = s.listen[k].ring.fi ∧
        (∀ code, s.hpt.mailbox = .busy code → t.hpt.mailbox = .done .ok code) ∧
        (∀ slot : Slot, s.smap.entries[slot].tagOf = some tag →
          (∀ j : Slot, j < slot → s.smap.entries[j].tagOf ≠ some tag) →
          t.listen[k].bound = some slot ∧ t.listen[k].expected = none ∧
          t.listen[k].state = (if s.listen[k].ring.ci ≠ s.listen[k].ring.fi then .receiving else .starved)) ∧
        ((∀ j : Slot, s.smap.entries[j].tagOf ≠ some tag) →
          t.listen[k].bound = none ∧ t.listen[k].state = .waiting)) ∧
      (∀ k : ListenId, s.listen[k].close = .taken → s.listen[k].resumeWaits = false →
        (s.listen[k].writing = true → t.listen[k] = { s.listen[k] with
          close := .applied, bound := none, expected := none, duplicate := false, waiting := [], episode := none
          state := if s.listen[k].state = .halted then .halted else .waiting }) ∧
        (s.listen[k].writing = false →
          t.listen[k].state = .closed ∧ t.listen[k].tag = none ∧ t.listen[k].bound = none ∧
          t.listen[k].expected = none ∧ t.listen[k].inWrite = [] ∧ t.listen[k].waiting = [] ∧
          t.listen[k].episode = none ∧ t.listen[k].duplicate = false ∧ t.listen[k].close = .none ∧
          t.listen[k].haltCause = none ∧ t.listen[k].ring.current = none ∧ t.listen[k].ring.ahead = none ∧
          (∀ code, s.hpt.mailbox = .busy code → t.hpt.mailbox = .done .ok code) ∧
          ((heldOf s.listen[k].ring.current).isSome = true → 0 < s.listen[k].ring.position →
            t.listen[k].ring.ci = s.listen[k].ring.ci + 1 ∧
            t.mpt.waiting[listenChannel k] = s.mpt.waiting[listenChannel k] ++
              [{ purpose := .writeback
                 address := s.listen[k].ring.base + BitVec.ofNat 32 (16 * s.listen[k].ring.ci.val) + 8#32
                 words := 2, requester := listenChannel k
                 data := [completionWord2 .partialUse s.listen[k].ring.position,
                          completionWord3 s.stamp s.listen[k].lastSequence] }]) ∧
          (heldOf s.listen[k].ring.current = none ∨ s.listen[k].ring.position = 0 →
            t.listen[k].ring.ci = s.listen[k].ring.ci ∧
            t.mpt.waiting[listenChannel k] = s.mpt.waiting[listenChannel k]))) ∧
      ((∀ k : ListenId, s.listen[k].resumeWaits = false ∧ s.listen[k].close ≠ .taken) →
        t.mpt = s.mpt ∧ t.hpt.mailbox = s.hpt.mailbox ∧
        t.evq = (s.postAll ((List.finRange 8).flatMap fun k : ListenId =>
          match s.listen[k].tag with
          | none => []
          | some tag => (Listen.resolve { channel := listenChannel k, stamp := s.stamp } (s.foundSlot tag)
              (s.slotsWithTag tag).length s.listen[k]).records)).evq) ∧
      t.smap = s.smap ∧ t.cle = s.cle ∧ t.talk = s.talk ∧ t.stc = s.stc) ∧
    (∀ (tag : Tag) (slot : Slot), s.smap.entries[slot].tagOf = some tag →
      (∀ j : Slot, j < slot → s.smap.entries[j].tagOf ≠ some tag) →
      s.foundSlot tag = some (slot, match s.smap.entries[slot] with
        | .peer owner .. => owner
        | .free | .own .. | .quarantine _ => s.selfId)) ∧
    (∀ tag : Tag, (∀ j : Slot, s.smap.entries[j].tagOf ≠ some tag) → s.foundSlot tag = none) ∧
    (∀ (tag : Tag) (slot : Slot), slot ∈ s.slotsWithTag tag ↔ s.smap.entries[slot].tagOf = some tag) ∧
    (∀ tag : Tag, (s.slotsWithTag tag).Nodup)) ∧
  (∀ (ctx : ChannelContext) (found : Option (Slot × StationId)) (n : Nat) (l : Listen) (made : List EventRecord),
    made = (Listen.resolve ctx found n l).records → l.state ≠ .closed → l.close = .none →
    (∀ slot owner, found = some (slot, owner) → l.bound ≠ some slot →
      made.head? = some { kind := .streamBound, channel := some ctx.channel, slot := some slot,
                          station := some owner, tag := l.tag, detail := 0, stamp := 0 } ∧
      (l.state = .waiting → l.ring.ci = l.ring.fi → made[1]? = some
        { kind := .channelStarved, channel := some ctx.channel, slot := some slot, station := none, tag := none,
          detail := 0, stamp := 0 })) ∧
    (∀ slot, found = none → l.bound = some slot →
      made.head? = some { kind := .streamGone, channel := some ctx.channel, slot := some slot, station := none,
                          tag := l.tag, detail := 0, stamp := 0 } ∧
      (∀ e, l.state ≠ .halted → l.episode = some e →
        (Listen.resolve ctx found n l).chan.episode = none ∧ made[1]? = some
          { kind := .dropEpisode, channel := some ctx.channel, slot := some e.slot, station := none, tag := l.tag,
            detail := BitVec.ofNat 16 e.words, stamp := 0 })) ∧
    (2 ≤ n → l.duplicate = false → (Listen.resolve ctx found n l).chan.duplicate = true ∧
      made.getLast? = some { kind := .duplicateTag, channel := some ctx.channel, slot := found.map Prod.fst,
                             station := none, tag := l.tag, detail := BitVec.ofNat 16 n, stamp := 0 }) ∧
    (2 ≤ n → l.duplicate = true → (Listen.resolve ctx found n l).chan.duplicate = true ∧
      ∀ r ∈ made, r.kind ≠ .duplicateTag) ∧
    (n < 2 → (Listen.resolve ctx found n l).chan.duplicate = false ∧ ∀ r ∈ made, r.kind ≠ .duplicateTag) ∧
    (found = none ∨ (found.map Prod.fst = l.bound) → ∀ r ∈ made, r.kind ≠ .streamBound) ∧
    (found.isSome = true ∨ l.bound = none → ∀ r ∈ made, r.kind ≠ .streamGone))

/-- STC's boundary work outside leaving (R26, R35, R36): in LISTENING the learn count advances, and at 8 the station is
JOINED with LINK_JOINED; the window rounds advance; the 64th ends the window, with the new band of R36, BAND_CHANGED
where it differs, and both counts at 0. Without a boundary nothing happens. That learning comes before the window is the
model's order (log entry 25). Where a duplicate-id report waits with the boundary, the work is done first and FAULT with
cause DUPLICATE_ID follows it (R31). That it follows in the same step, that FAULT_ENTERED comes before the other
records of the entry, and what the stopped link's implied state holds are the model's (log entries 6, 10 and 22). -/
def Obligations.StationBoundaryWorkLearnsAndJudges : Prop :=
  ∀ s : State,
    (s.boundary.station = false → exec .stationBoundaryWork s = .next s) ∧
    (s.boundary.station = true → s.stc.leavePending = false → ∀ r : DuplicateReport, s.stc.report = some r →
      s.stc.state = .listening ∨ s.stc.state = .joined → ∃ u t,
        exec .stationBoundaryWork { s with stc := { s.stc with report := none } } = .next u ∧
        exec .stationBoundaryWork s = .next t ∧ u.entersFault t .duplicateId ∧
        (u.evq.queue.length < 32 → ∃ more, t.evq.queue = u.evq.queue ++
          { kind := .faultEntered, channel := none, slot := some r.slot, station := none, tag := some r.tag,
            detail := 3, stamp := s.stamp } :: more)) ∧
    (s.boundary.station = true → s.stc.leavePending = false → s.stc.report = none → ∀ u : State,
      u = { s with boundary := { s.boundary with station := false } } →
      (s.stc.state = .listening → s.stc.learn < 7 → s.stc.windowRounds < 63 →
        exec .stationBoundaryWork s = .next { u with stc := { s.stc with
          learn := s.stc.learn + 1, windowRounds := s.stc.windowRounds + 1 } }) ∧
      (s.stc.state = .listening → s.stc.learn = 7 → s.stc.windowRounds < 63 →
        exec .stationBoundaryWork s = .next { u.post
            { kind := .linkJoined, channel := none, slot := none, station := none, tag := none, detail := 0,
              stamp := 0 } with
          stc := { s.stc with state := .joined, learn := 8, windowRounds := s.stc.windowRounds + 1 } }) ∧
      (s.stc.state = .joined → s.stc.windowRounds < 63 →
        exec .stationBoundaryWork s = .next { u with stc := { s.stc with
          windowRounds := s.stc.windowRounds + 1 } }) ∧
      (s.stc.state = .joined → s.stc.windowRounds = 63 → ∀ band : Band,
        band = (match s.stc.band with
          | .good => if 8 ≤ s.stc.windowErrors then .degraded else .good
          | .degraded => if s.stc.windowErrors ≤ 1 then .good else .degraded) →
        (band = s.stc.band → exec .stationBoundaryWork s = .next { u with stc := { s.stc with
          windowRounds := 0, windowErrors := 0 } }) ∧
        (band ≠ s.stc.band → exec .stationBoundaryWork s = .next (State.post
          { u with stc := { s.stc with band, windowRounds := 0, windowErrors := 0 } }
          { kind := .bandChanged, channel := none, slot := none, station := none, tag := none,
            detail := if band = .good then 0 else 1, stamp := 0 }))))

/-- A leave ends at a boundary (R27, R29, R30): in LEAVING, with the other blocks' work done and the queue empty after
the releases of R29, and in LISTENING with leave pending; the station is READY with a FREE map, no channel is bound and
the link is stopped. LINK_LEFT carries the number of slots still OWNED; it is the only record where no channel is bound
or has a held halt, a drop episode or a CLOSE waiting and a place is free, and the last one wherever no record is
dropped. In LEAVING a bound channel without a request or a leave mark gets its RELEASE first, and the station stays.
Where a duplicate-id report waits, a leave that ends is done whole and FAULT follows from READY (R31, log entry 7). How
the boundary waits, the moment of that entry, the record order, the order inside STC's work and what the stopped link's
implied state holds are the model's (log entries 4, 6, 10, 22 and 25). -/
def Obligations.LeaveEndsAtABoundary : Prop :=
  ∀ s : State, s.boundary = { BoundaryWork.nothing with station := true } → s.stc.windowRounds < 63 →
    (∀ r : DuplicateReport, s.stc.report = some r →
      (s.stc.state = .leaving ∧ s.cle.queue = [] ∧
        ∀ k : TalkId, s.talk[k].bound = none ∨ s.stc.leaveMarks[k] = true) ∨
      (s.stc.state = .listening ∧ s.stc.leavePending = true) →
      ∃ u t, exec .stationBoundaryWork { s with stc := { s.stc with report := none } } = .next u ∧
        exec .stationBoundaryWork s = .next t ∧ u.stc.state = .ready ∧ u.entersFault t .duplicateId) ∧
    (s.stc.report = none → ((s.stc.state = .leaving ∧ s.cle.queue = [] ∧
        ∀ k : TalkId, s.talk[k].bound = none ∨ s.stc.leaveMarks[k] = true) ∨
      (s.stc.state = .listening ∧ s.stc.leavePending = true)) →
      ∃ t, exec .stationBoundaryWork s = .next t ∧
        t.stc = { s.stc with
          state := .ready, leavePending := false, leaveMarks := Vector.replicate 8 false, report := none
          windowRounds := s.stc.windowRounds + 1 } ∧
        t.smap = { s.smap with
          entries := Vector.replicate 32 .free, observations := Vector.replicate 32 none, message := none,
          part := .notSent, abandon := [] } ∧
        t.cle = s.cle ∧ s.linkStopped t ∧ s.channelsUnbound t ∧
        ((∀ k : TalkId, s.talk[k].heldHalts = [] ∧ s.talk[k].bound = none) →
          (∀ k : ListenId, s.listen[k].episode = none ∧ s.listen[k].close = .none) →
          s.evq.queue.length < 32 →
          t.evq.queue = s.evq.queue ++
            [{ kind := .linkLeft, channel := none, slot := none, station := none, tag := none,
               detail := BitVec.ofNat 16 s.smap.ownCount, stamp := s.rtm.counter.setWidth 16 }]) ∧
        (t.evq.dropped = s.evq.dropped → s.evq.dropped < 65535 → t.evq.queue.getLast? = some
          { kind := .linkLeft, channel := none, slot := none, station := none, tag := none,
            detail := BitVec.ofNat 16 s.smap.ownCount, stamp := s.rtm.counter.setWidth 16 })) ∧
    (∀ k : TalkId, s.stc.report = none → s.stc.state = .leaving → s.talk[k].bound.isSome = true → s.cle.holds k = false →
      s.stc.leaveMarks[k] = false →
      ∃ t, exec .stationBoundaryWork s = .next t ∧ t.stc.state = .leaving ∧ t.stc.leaveMarks[k] = true ∧
        { kind := .release, channel := k, slot := s.talk[k].bound, tag := s.talk[k].tag.getD 0, attempts := 0,
          sentSlot := none, phase := .waiting } ∈ t.cle.queue ∧ t.talk = s.talk ∧ t.smap = s.smap)

/-! ## The Memory Port (chapter 8) and its responses -/

/-- A grant (R140 to R142): with a place free and no absorption, the first ready channel after the pointer in circular
order has the head of its waiting list issued and becomes the pointer; otherwise nothing happens. That a command is one
grant is the model's (log entry 18). -/
def Obligations.ArbiterGrantsInTurn : Prop :=
  ∀ s : State,
    (∀ (c : ChannelId) (r : MemRequest) (rest : List MemRequest), s.mpt.outstanding.length < 4 → s.mpt.absorb = 0 →
      s.mpt.waiting[c] = r :: rest →
      (∀ d : ChannelId, d - (s.mpt.pointer + 1) < c - (s.mpt.pointer + 1) → s.mpt.waiting[d] = []) →
      exec .arbiterGrant s = .next { s with mpt := { s.mpt with
        waiting := s.mpt.waiting.set c rest, outstanding := s.mpt.outstanding ++ [r], pointer := c } }) ∧
    (4 ≤ s.mpt.outstanding.length ∨ 0 < s.mpt.absorb ∨ (∀ c : ChannelId, s.mpt.waiting[c] = []) →
      exec .arbiterGrant s = .next s)

/-- While responses are absorbed (R148), each one, OK or ERROR, removes the oldest outstanding request and is counted
off and nothing else changes, and the arbiter grants nothing; the count never exceeds the outstanding requests; when it
reaches 0 the arbiter grants if a channel is ready, as a command of its own (the model's choice, log entry 18). -/
def Obligations.OldResponsesAreAbsorbed : Prop :=
  ∀ (s : State) (r : MemRequest) (rest : List MemRequest) (error : Bool) (data : Vector Word 8),
    s.mpt.outstanding = r :: rest → 0 < s.mpt.absorb → s.portBounded →
    exec .arbiterGrant s = .next s ∧
    (∃ t, exec (.memoryResponse error data) s = .next t ∧
      t = { s with mpt := { s.mpt with outstanding := rest, absorb := s.mpt.absorb - 1 } } ∧
      t.mpt.absorb ≤ t.mpt.outstanding.length ∧
      (s.mpt.absorb = 1 → (∃ c : ChannelId, s.mpt.waiting[c] ≠ []) →
        ∃ u, exec .arbiterGrant t = .next u ∧ u.mpt.outstanding.length = t.mpt.outstanding.length + 1))

/-- The response to a fetch of a talk or a listen channel (R94 to R96, R102, R109, R132, R144). Of the current: a
descriptor that passes the checks of R94 is HELD at position as it stood; one that fails is written back BAD and halts
the channel, CI staying; an ERROR halts it with cause MEMORY and no writeback; each with its CHANNEL_HALTED (R102);
while a burst of a talk channel is on the line either halt is held (R118). Of the ahead: it is HELD, or the failure is
pending on it and halts nothing yet. A descriptor found HELD sets the read or write point as R108 and R131 have it, the
channel's state is the one of R106 or R123, and the requests then called for are made. A stale fetch of a CLOSED or
HALTED channel, which makes no new request, changes nothing but the list. That the words read come first in `data` is
the model's (log entry 19). -/
def Obligations.FetchResponsesAreChecked : Prop :=
  (∀ (s : State) (k : TalkId) (r : MemRequest) (rest : List MemRequest) (e : RequestEntry) (es : List RequestEntry)
    (data : Vector Word 8),
    s.mpt.outstanding = r :: rest → s.mpt.absorb = 0 → r.requester = talkChannel k →
    s.talk[k].requests = e :: es → e.purpose = .descFetch →
    (e.stale = true → s.talk[k].state = .closed ∨ s.talk[k].state = .halted → ∀ error : Bool,
      exec (.memoryResponse error data) s = .next { s with
        mpt := { s.mpt with outstanding := rest }
        talk := s.talk.set k { s.talk[k] with requests := es } }) ∧
    (e.stale = false → e.index = s.talk[k].ring.ci → ∀ d : Descriptor,
      d = { address := data[0], length := data[1].toNat % 16384, event := data[1].getLsbD 30,
            final := data[1].getLsbD 31 } →
      (d.length ≠ 0 → d.address.toNat % 4 = 0 →
        d.address.toNat / 65536 = (d.address.toNat + 4 * d.length - 1) / 65536 →
        ∃ t, exec (.memoryResponse false data) s = .next t ∧ t.talk[k].ring.current = some (.held d) ∧
          s.talkAsks t k [] (Talk.due { s.talk[k] with
            requests := es, ring := { s.talk[k].ring with current := some (.held d) }
            readPoint := some (s.talk[k].ring.ci, 0) }) ∧
          t.talk[k].ring.position = s.talk[k].ring.position ∧ t.talk[k].ring.ci = s.talk[k].ring.ci ∧
          t.talk[k].staging = s.talk[k].staging ∧ t.mpt.outstanding = rest ∧
          (∀ j : TalkId, j ≠ k → t.talk[j] = s.talk[j]) ∧ t.listen = s.listen ∧ t.stc = s.stc ∧ t.smap = s.smap ∧
          t.cle = s.cle ∧ t.hpt.mailbox = s.hpt.mailbox) ∧
      (s.talk[k].onLine = none → d.length = 0 ∨ d.address.toNat % 4 ≠ 0 ∨
        d.address.toNat / 65536 ≠ (d.address.toNat + 4 * d.length - 1) / 65536 →
        ∃ t, exec (.memoryResponse false data) s = .next t ∧ t.talk[k].state = .halted ∧
          t.talk[k].haltCause = some .badDescriptor ∧ t.talk[k].ring.ci = s.talk[k].ring.ci ∧
          t.talk[k].ring.current = none ∧ t.talk[k].ring.ahead = none ∧ t.talk[k].staging = [] ∧
          t.talk[k].bound = s.talk[k].bound ∧
          t.mpt.waiting[talkChannel k] = s.mpt.waiting[talkChannel k] ++
            [{ purpose := .writeback
               address := s.talk[k].ring.base + BitVec.ofNat 32 (16 * s.talk[k].ring.ci.val) + 8#32
               words := 2, requester := talkChannel k
               data := [completionWord2 .bad 0, completionWord3 s.stamp none] }] ∧
          s.reports t (haltRecord (talkChannel k) 1)) ∧
      (s.talk[k].onLine = none →
        ∃ t, exec (.memoryResponse true data) s = .next t ∧ t.talk[k].state = .halted ∧
        s.reports t (haltRecord (talkChannel k) (2 + 256 * s.talk[k].ring.ci.val)) ∧
        t.talk[k].haltCause = some .memory ∧ t.talk[k].ring.ci = s.talk[k].ring.ci ∧
        t.talk[k].ring.current = none ∧ t.talk[k].ring.ahead = none ∧ t.mpt.waiting = s.mpt.waiting ∧
        t.talk[k].bound = s.talk[k].bound)) ∧
    (e.stale = false → e.index = s.talk[k].ring.ci → s.talk[k].onLine.isSome = true → ∀ d : Descriptor,
      d = { address := data[0], length := data[1].toNat % 16384, event := data[1].getLsbD 30,
            final := data[1].getLsbD 31 } →
      (d.length = 0 ∨ d.address.toNat % 4 ≠ 0 ∨
        d.address.toNat / 65536 ≠ (d.address.toNat + 4 * d.length - 1) / 65536 →
        ∃ t, exec (.memoryResponse false data) s = .next t ∧ t.talk[k].ring.current = some (.bad d) ∧
          t.talk[k].heldHalts = s.talk[k].heldHalts ++ [.badDescriptor] ∧ t.talk[k].onLine = s.talk[k].onLine ∧
          t.talk[k].haltCause = s.talk[k].haltCause ∧ t.talk[k].staging = s.talk[k].staging) ∧
      (∃ t, exec (.memoryResponse true data) s = .next t ∧ t.talk[k].ring.current = some .fetchError ∧
        t.talk[k].heldHalts = s.talk[k].heldHalts ++ [.fetchFailed] ∧ t.talk[k].onLine = s.talk[k].onLine ∧
        t.talk[k].haltCause = s.talk[k].haltCause ∧ t.talk[k].staging = s.talk[k].staging)) ∧
    (e.stale = false → e.index = s.talk[k].ring.ci + 1 → s.talk[k].ring.ahead = some .fetching →
      ∀ c d : Descriptor, s.talk[k].ring.current = some (.held c) →
      d = { address := data[0], length := data[1].toNat % 16384, event := data[1].getLsbD 30,
            final := data[1].getLsbD 31 } →
      ∀ (error : Bool) (found : Taken),
        ((error = false ∧ d.length ≠ 0 ∧ d.address.toNat % 4 = 0 ∧
            d.address.toNat / 65536 = (d.address.toNat + 4 * d.length - 1) / 65536 ∧ found = .held d) ∨
          (error = false ∧ (d.length = 0 ∨ d.address.toNat % 4 ≠ 0 ∨
            d.address.toNat / 65536 ≠ (d.address.toNat + 4 * d.length - 1) / 65536) ∧ found = .bad d) ∨
          (error = true ∧ found = .fetchError)) →
        ∃ t, exec (.memoryResponse error data) s = .next t ∧ t.talk[k].ring.ahead = some found ∧
          s.talkAsks t k [] (Talk.due { s.talk[k] with
            requests := es, ring := { s.talk[k].ring with ahead := some found }
            readPoint := if found = .held d ∧ s.talk[k].readPoint.map Prod.fst ≠ some s.talk[k].ring.ci then
              some (s.talk[k].ring.ci + 1, 0) else s.talk[k].readPoint }) ∧
          t.talk[k].ring.current = some (.held c) ∧ t.talk[k].ring.ci = s.talk[k].ring.ci ∧
          t.talk[k].ring.position = s.talk[k].ring.position ∧ t.talk[k].haltCause = s.talk[k].haltCause ∧
          t.talk[k].heldHalts = s.talk[k].heldHalts ∧ t.talk[k].staging = s.talk[k].staging ∧
          t.talk[k].bound = s.talk[k].bound ∧ t.mpt.outstanding = rest)) ∧
  (∀ (s : State) (k : ListenId) (r : MemRequest) (rest : List MemRequest) (e : RequestEntry) (es : List RequestEntry)
    (data : Vector Word 8),
    s.mpt.outstanding = r :: rest → s.mpt.absorb = 0 → r.requester = listenChannel k →
    s.listen[k].requests = e :: es → e.purpose = .descFetch → s.listen[k].close = .none →
    (e.stale = true → s.listen[k].state = .closed ∨ s.listen[k].state = .halted → ∀ error : Bool,
      exec (.memoryResponse error data) s = .next { s with
        mpt := { s.mpt with outstanding := rest }
        listen := s.listen.set k { s.listen[k] with requests := es } }) ∧
    (e.stale = false → e.index = s.listen[k].ring.ci → ∀ d : Descriptor,
      d = { address := data[0], length := data[1].toNat % 16384, event := data[1].getLsbD 30,
            final := data[1].getLsbD 31 } →
      (d.length ≠ 0 → d.address.toNat % 4 = 0 →
        d.address.toNat / 65536 = (d.address.toNat + 4 * d.length - 1) / 65536 →
        ∃ t, exec (.memoryResponse false data) s = .next t ∧ t.listen[k].ring.current = some (.held d) ∧
          s.listenAsks t k [] (Listen.due { s.listen[k] with
            requests := es, ring := { s.listen[k].ring with current := some (.held d) }
            writePoint := some (s.listen[k].ring.ci, 0) }) ∧
          t.listen[k].ring.position = s.listen[k].ring.position ∧ t.listen[k].ring.ci = s.listen[k].ring.ci ∧
          t.listen[k].inWrite ++ t.listen[k].waiting = s.listen[k].inWrite ++ s.listen[k].waiting ∧
          t.listen[k].bound = s.listen[k].bound ∧ t.mpt.outstanding = rest ∧
          (∀ j : ListenId, j ≠ k → t.listen[j] = s.listen[j]) ∧ t.talk = s.talk ∧ t.stc = s.stc ∧
          t.smap = s.smap ∧ t.cle = s.cle ∧ t.hpt.mailbox = s.hpt.mailbox) ∧
      (d.length = 0 ∨ d.address.toNat % 4 ≠ 0 ∨
        d.address.toNat / 65536 ≠ (d.address.toNat + 4 * d.length - 1) / 65536 →
        ∃ t, exec (.memoryResponse false data) s = .next t ∧ t.listen[k].state = .halted ∧
          t.listen[k].haltCause = some .badDescriptor ∧ t.listen[k].ring.ci = s.listen[k].ring.ci ∧
          t.listen[k].ring.current = none ∧ t.listen[k].ring.ahead = none ∧ t.listen[k].inWrite = [] ∧
          t.listen[k].waiting = [] ∧ t.listen[k].expected = none ∧ t.listen[k].bound = s.listen[k].bound ∧
          t.mpt.waiting[listenChannel k] = s.mpt.waiting[listenChannel k] ++
            [{ purpose := .writeback
               address := s.listen[k].ring.base + BitVec.ofNat 32 (16 * s.listen[k].ring.ci.val) + 8#32
               words := 2, requester := listenChannel k
               data := [completionWord2 .bad 0, completionWord3 s.stamp none] }] ∧
          s.reports t (haltRecord (listenChannel k) 1)) ∧
      (∃ t, exec (.memoryResponse true data) s = .next t ∧ t.listen[k].state = .halted ∧
        s.reports t (haltRecord (listenChannel k) (2 + 256 * s.listen[k].ring.ci.val)) ∧
        t.listen[k].haltCause = some .memory ∧ t.listen[k].ring.ci = s.listen[k].ring.ci ∧
        t.listen[k].ring.current = none ∧ t.listen[k].ring.ahead = none ∧ t.mpt.waiting = s.mpt.waiting ∧
        t.listen[k].bound = s.listen[k].bound)) ∧
    (e.stale = false → e.index = s.listen[k].ring.ci + 1 → s.listen[k].ring.ahead = some .fetching →
      ∀ c d : Descriptor, s.listen[k].ring.current = some (.held c) →
      d = { address := data[0], length := data[1].toNat % 16384, event := data[1].getLsbD 30,
            final := data[1].getLsbD 31 } →
      ∀ (error : Bool) (found : Taken),
        ((error = false ∧ d.length ≠ 0 ∧ d.address.toNat % 4 = 0 ∧
            d.address.toNat / 65536 = (d.address.toNat + 4 * d.length - 1) / 65536 ∧ found = .held d) ∨
          (error = false ∧ (d.length = 0 ∨ d.address.toNat % 4 ≠ 0 ∨
            d.address.toNat / 65536 ≠ (d.address.toNat + 4 * d.length - 1) / 65536) ∧ found = .bad d) ∨
          (error = true ∧ found = .fetchError)) →
        ∃ t, exec (.memoryResponse error data) s = .next t ∧ t.listen[k].ring.ahead = some found ∧
          s.listenAsks t k [] (Listen.due { s.listen[k] with
            requests := es, ring := { s.listen[k].ring with ahead := some found }
            writePoint := if found = .held d ∧ s.listen[k].writePoint = none then
              some (s.listen[k].ring.ci + 1, 0) else s.listen[k].writePoint }) ∧
          t.listen[k].ring.current = some (.held c) ∧ t.listen[k].ring.ci = s.listen[k].ring.ci ∧
          t.listen[k].ring.position = s.listen[k].ring.position ∧
          t.listen[k].haltCause = s.listen[k].haltCause ∧
          t.listen[k].inWrite ++ t.listen[k].waiting = s.listen[k].inWrite ++ s.listen[k].waiting ∧
          t.listen[k].bound = s.listen[k].bound ∧ t.mpt.outstanding = rest))

/-- The responses to a talk channel's data read and to a talk or a listen channel's writeback (R99 to R102, R109,
R132). Read words join the back of staging with their descriptor's index, the channel's state is the one of R106, and
the reads and fetches then called for are made (R93, R98, R108); an ERROR makes the later reads stale and
halts the channel with cause MEMORY and a MEMORY writeback of the words sent, or stands on the ahead until that becomes
the current; while a burst is on the line the halt is held (R118). An OK response to an OK writeback of a descriptor
with EVENT makes BUFFER_DONE, to any other none; a failed writeback makes WRITEBACK_FAILED and halts an open channel
that is not HALTED with cause MEMORY and its CHANNEL_HALTED, and changes nothing else of one that is. The halt of a
listen channel whose CLOSE has been applied completes the CLOSE, for its writes are stale (R138). That the words read
come first in `data` is the model's (log entry 19). -/
def Obligations.ReadAndWritebackResponses : Prop :=
  (∀ (s : State) (k : TalkId) (r : MemRequest) (rest : List MemRequest) (e : RequestEntry) (es : List RequestEntry)
    (data : Vector Word 8),
    s.mpt.outstanding = r :: rest → s.mpt.absorb = 0 → r.requester = talkChannel k →
    s.talk[k].requests = e :: es → e.stale = false →
    (e.purpose = .dataRead → ∃ t, exec (.memoryResponse false data) s = .next t ∧
      s.talkAsks t k [] (Talk.due { s.talk[k] with
        requests := es
        staging := s.talk[k].staging ++ (data.toList.take e.words).map fun w => { index := e.index, word := w } }) ∧
      t.talk[k].staging = s.talk[k].staging ++
        (data.toList.take e.words).map (fun w => { index := e.index, word := w }) ∧
      t.talk[k].ring.ci = s.talk[k].ring.ci ∧ t.talk[k].ring.position = s.talk[k].ring.position ∧
      t.talk[k].bound = s.talk[k].bound ∧ t.mpt.outstanding = rest ∧ t.cle = s.cle ∧ t.smap = s.smap) ∧
    (e.purpose = .dataRead → e.index = s.talk[k].ring.ci → s.talk[k].onLine = none →
      ∀ d, s.talk[k].ring.current = some (.held d) → ∃ t, exec (.memoryResponse true data) s = .next t ∧
        t.talk[k].state = .halted ∧ t.talk[k].haltCause = some .memory ∧ t.talk[k].staging = [] ∧
        t.talk[k].ring.ci = s.talk[k].ring.ci + 1 ∧ t.talk[k].ring.current = none ∧
        t.talk[k].ring.ahead = none ∧ t.talk[k].ring.position = 0 ∧ t.talk[k].bound = s.talk[k].bound ∧
        (∀ x ∈ t.talk[k].requests, x.purpose ≠ .writeback → x.stale = true) ∧
        s.reports t (haltRecord (talkChannel k) (2 + 256 * s.talk[k].ring.ci.val)) ∧
        t.mpt.waiting[talkChannel k] = s.mpt.waiting[talkChannel k] ++
          [{ purpose := .writeback
             address := s.talk[k].ring.base + BitVec.ofNat 32 (16 * s.talk[k].ring.ci.val) + 8#32
             words := 2, requester := talkChannel k
             data := [completionWord2 .memory s.talk[k].ring.position, completionWord3 s.stamp none] }]) ∧
    (s.talk[k].onLine.isSome = true → s.talk[k].state ≠ .closed → s.talk[k].state ≠ .halted →
      (e.purpose = .dataRead → e.index = s.talk[k].ring.ci → ∃ t, exec (.memoryResponse true data) s = .next t ∧
        t.talk[k].heldHalts = s.talk[k].heldHalts ++ [.dataFailed] ∧ t.talk[k].onLine = s.talk[k].onLine ∧
        t.talk[k].haltCause = s.talk[k].haltCause ∧ t.talk[k].staging = s.talk[k].staging ∧
        ∀ x ∈ t.talk[k].requests, x.purpose = .dataRead → x.stale = true) ∧
      (e.purpose = .writeback → ∃ t, exec (.memoryResponse true data) s = .next t ∧
        t.talk[k].heldHalts = s.talk[k].heldHalts ++ [.writebackFailed e.index] ∧
        t.talk[k].onLine = s.talk[k].onLine ∧ t.talk[k].haltCause = s.talk[k].haltCause ∧
        t.talk[k].staging = s.talk[k].staging ∧
        (s.records .writebackFailed = true → s.evq.queue.length < 32 → ∃ more, t.evq.queue = s.evq.queue ++
          { kind := .writebackFailed, channel := some (talkChannel k), slot := none, station := none, tag := none,
            detail := BitVec.ofNat 16 e.index.val, stamp := s.stamp } :: more))) ∧
    (e.purpose = .dataRead → e.index = s.talk[k].ring.ci + 1 →
      ∀ a, s.talk[k].ring.ahead = some (.held a) → ∃ t, exec (.memoryResponse true data) s = .next t ∧
        t.talk[k].ring.ahead = some (.readError a) ∧ t.talk[k].haltCause = s.talk[k].haltCause ∧
        s.talkAsks t k [] (Talk.due { s.talk[k] with
          requests := es.map fun x => { x with stale := x.stale || x.purpose == .dataRead }
          ring := { s.talk[k].ring with ahead := some (.readError a) } }) ∧
        t.talk[k].heldHalts = s.talk[k].heldHalts ∧ t.talk[k].staging = s.talk[k].staging ∧
        t.talk[k].ring.ci = s.talk[k].ring.ci ∧ t.talk[k].ring.position = s.talk[k].ring.position ∧
        t.talk[k].bound = s.talk[k].bound ∧
        ∃ later, t.talk[k].requests =
          es.map (fun x => { x with stale := x.stale || x.purpose == .dataRead }) ++ later) ∧
    (e.purpose = .writeback → s.talk[k].state = .closed ∨ s.talk[k].state = .halted → ∀ u : State,
      u = { s with
        mpt := { s.mpt with outstanding := rest }
        talk := s.talk.set k { s.talk[k] with requests := es } } →
      exec (.memoryResponse false data) s = .next (if e.ok = true ∧ e.event = true then
        u.post { kind := .bufferDone, channel := some (talkChannel k), slot := none, station := none, tag := none,
                 detail := BitVec.ofNat 16 e.index.val, stamp := 0 } else u) ∧
      exec (.memoryResponse true data) s = .next (u.post
        { kind := .writebackFailed, channel := some (talkChannel k), slot := none, station := none, tag := none,
          detail := BitVec.ofNat 16 e.index.val, stamp := 0 })) ∧
    (e.purpose = .writeback → s.evq.queue.length < 32 → ∃ t more, exec (.memoryResponse false data) s = .next t ∧
      s.talkAsks t k [] (Talk.due { s.talk[k] with requests := es }) ∧
      t.talk[k].ring.ci = s.talk[k].ring.ci ∧ t.talk[k].bound = s.talk[k].bound ∧
      t.talk[k].staging = s.talk[k].staging ∧
      (e.ok = true → e.event = true → s.records .bufferDone = true → t.evq.queue = s.evq.queue ++
        { kind := .bufferDone, channel := some (talkChannel k), slot := none, station := none, tag := none,
          detail := BitVec.ofNat 16 e.index.val, stamp := s.stamp } :: more) ∧
      (e.ok = false ∨ e.event = false → t.evq.queue = s.evq.queue ++ more ∧ ∀ x ∈ more, x.kind ≠ .bufferDone)) ∧
    (e.purpose = .writeback → s.talk[k].state ≠ .closed → s.talk[k].state ≠ .halted → s.talk[k].onLine = none →
      ∃ t, exec (.memoryResponse true data) s = .next t ∧ t.talk[k].state = .halted ∧
        (s.records .writebackFailed = true → s.evq.queue.length < 32 → ∃ more, t.evq.queue = s.evq.queue ++
          { kind := .writebackFailed, channel := some (talkChannel k), slot := none, station := none, tag := none,
            detail := BitVec.ofNat 16 e.index.val, stamp := s.stamp } :: more) ∧
        s.reports t (haltRecord (talkChannel k) (2 + 256 * e.index.val)) ∧
        t.talk[k].haltCause = some .memory ∧ t.talk[k].staging = [] ∧ t.talk[k].ring.current = none ∧
        t.talk[k].ring.position = 0 ∧ t.talk[k].bound = s.talk[k].bound ∧
        (∀ d, s.talk[k].ring.current = some (.held d) → t.talk[k].ring.ci = s.talk[k].ring.ci + 1 ∧
          t.mpt.waiting[talkChannel k] = s.mpt.waiting[talkChannel k] ++
            [{ purpose := .writeback
               address := s.talk[k].ring.base + BitVec.ofNat 32 (16 * s.talk[k].ring.ci.val) + 8#32
               words := 2, requester := talkChannel k
               data := [completionWord2 .memory s.talk[k].ring.position, completionWord3 s.stamp none] }]) ∧
        (s.talk[k].ring.current = none ∨ s.talk[k].ring.current = some .fetching →
          t.talk[k].ring.ci = s.talk[k].ring.ci ∧ t.mpt.waiting = s.mpt.waiting))) ∧
  (∀ (s : State) (k : ListenId) (r : MemRequest) (rest : List MemRequest) (e : RequestEntry) (es : List RequestEntry)
    (data : Vector Word 8),
    s.mpt.outstanding = r :: rest → s.mpt.absorb = 0 → r.requester = listenChannel k →
    s.listen[k].requests = e :: es → e.purpose = .writeback → e.stale = false →
    (s.listen[k].close = .applied → writesLeft es) →
    (s.listen[k].state = .closed ∨ s.listen[k].state = .halted → ∀ u : State,
      u = { s with
        mpt := { s.mpt with outstanding := rest }
        listen := s.listen.set k { s.listen[k] with requests := es } } →
      exec (.memoryResponse false data) s = .next (if e.ok = true ∧ e.event = true then
        u.post { kind := .bufferDone, channel := some (listenChannel k), slot := none, station := none,
                 tag := none, detail := BitVec.ofNat 16 e.index.val, stamp := 0 } else u) ∧
      exec (.memoryResponse true data) s = .next (u.post
        { kind := .writebackFailed, channel := some (listenChannel k), slot := none, station := none, tag := none,
          detail := BitVec.ofNat 16 e.index.val, stamp := 0 })) ∧
    (s.evq.queue.length < 32 → ∃ t more, exec (.memoryResponse false data) s = .next t ∧
      s.listenAsks t k [] (Listen.due { s.listen[k] with requests := es }) ∧
      t.listen[k].ring.ci = s.listen[k].ring.ci ∧ t.listen[k].bound = s.listen[k].bound ∧
      t.listen[k].inWrite ++ t.listen[k].waiting = s.listen[k].inWrite ++ s.listen[k].waiting ∧
      t.listen[k].lastSequence = s.listen[k].lastSequence ∧ t.hpt.mailbox = s.hpt.mailbox ∧
      t.mpt.outstanding = rest ∧
      (e.ok = true → e.event = true → s.records .bufferDone = true → t.evq.queue = s.evq.queue ++
        { kind := .bufferDone, channel := some (listenChannel k), slot := none, station := none, tag := none,
          detail := BitVec.ofNat 16 e.index.val, stamp := s.stamp } :: more) ∧
      (e.ok = false ∨ e.event = false → t.evq.queue = s.evq.queue ++ more ∧ ∀ x ∈ more, x.kind ≠ .bufferDone)) ∧
    (s.listen[k].state ≠ .closed → s.listen[k].state ≠ .halted →
      ∃ t, exec (.memoryResponse true data) s = .next t ∧ s.listenHalts t k .memory ∧
        (s.records .writebackFailed = true → s.evq.queue.length < 32 → ∃ more, t.evq.queue = s.evq.queue ++
          { kind := .writebackFailed, channel := some (listenChannel k), slot := none, station := none, tag := none,
            detail := BitVec.ofNat 16 e.index.val, stamp := s.stamp } :: more) ∧
        s.reports t (haltRecord (listenChannel k) (2 + 256 * e.index.val)) ∧
        (∀ d, s.listen[k].ring.current = some (.held d) → t.listen[k].ring.ci = s.listen[k].ring.ci + 1 ∧
          t.mpt.waiting[listenChannel k] = s.mpt.waiting[listenChannel k] ++
            [{ purpose := .writeback
               address := s.listen[k].ring.base + BitVec.ofNat 32 (16 * s.listen[k].ring.ci.val) + 8#32
               words := 2, requester := listenChannel k
               data := [completionWord2 .memory s.listen[k].ring.position,
                        completionWord3 s.stamp
                          (if s.listen[k].ring.position = 0 then none else s.listen[k].lastSequence)] }]) ∧
        (s.listen[k].ring.current = none ∨ s.listen[k].ring.current = some .fetching →
          t.listen[k].ring.ci = s.listen[k].ring.ci ∧ t.mpt.waiting = s.mpt.waiting)))

/-- The response to a listen channel's data write (R89, R97, R101, R102, R132, R134, R138): OK, its words leave the
deposit and are done, and the last sequence is theirs; the buffer's last word completes it, with an OK writeback that
carries that sequence, and the ahead, HELD or in FETCHING, becomes the current at position 0; the channel's state is
the one of R123, and the writes and fetches then called for are made (R93, R98, R131); a failure pending on it takes
effect. An END buffer halts the channel with cause END and its waiting words are gone; that the ahead's failure then
has none is the model's (log entry 32). ERROR halts it with cause MEMORY and a MEMORY writeback of the words done
before, and the later writes are stale. A CLOSE that has been applied completes with its last write, a buffer that is
partly done written back PARTIAL; that no fetch comes before that completion is the model's (log entry 16). While
another write is outstanding, and while a CLOSE is only taken, the words are done as without it. -/
def Obligations.WriteResponsesCountTheWordsDone : Prop :=
  ∀ (s : State) (k : ListenId) (r : MemRequest) (rest : List MemRequest) (e : RequestEntry) (es : List RequestEntry)
    (data : Vector Word 8) (d : Descriptor) (last : DepositWord) (n : Nat)
    (writeback : RingIndex → List Word → MemRequest),
    s.mpt.outstanding = r :: rest → s.mpt.absorb = 0 → r.requester = listenChannel k →
    s.listen[k].requests = e :: es → e.purpose = .dataWrite → e.stale = false →
    s.listen[k].ring.current = some (.held d) → (s.listen[k].inWrite.take e.words).getLast? = some last →
    s.listen[k].state ≠ .closed → s.listen[k].state ≠ .halted → n = s.listen[k].ring.position + e.words →
    (∀ index words, writeback index words =
      { purpose := .writeback, address := s.listen[k].ring.base + BitVec.ofNat 32 (16 * index.val) + 8#32,
        words := 2, requester := listenChannel k, data := words }) →
    (s.listen[k].close ≠ .applied ∨ writesLeft es →
      (n < d.length → ∃ t, exec (.memoryResponse false data) s = .next t ∧
        s.listenAsks t k [] (Listen.due { s.listen[k] with
          requests := es, lastSequence := some last.sequence, inWrite := s.listen[k].inWrite.drop e.words
          ring := { s.listen[k].ring with position := n } }) ∧
        t.listen[k].ring.position = n ∧ t.listen[k].ring.ci = s.listen[k].ring.ci ∧
        t.listen[k].ring.current = some (.held d) ∧ t.listen[k].lastSequence = some last.sequence ∧
        t.listen[k].inWrite ++ t.listen[k].waiting = s.listen[k].inWrite.drop e.words ++ s.listen[k].waiting ∧
        t.listen[k].bound = s.listen[k].bound ∧ t.listen[k].close = s.listen[k].close ∧
        t.hpt.mailbox = s.hpt.mailbox ∧ t.mpt.outstanding = rest ∧ t.cle = s.cle ∧ t.talk = s.talk) ∧
      (n = d.length → d.final = false →
        s.listen[k].ring.ahead = none ∨ s.listen[k].ring.ahead = some .fetching ∨
          (∃ a, s.listen[k].ring.ahead = some (.held a)) →
        ∃ t later, exec (.memoryResponse false data) s = .next t ∧
          s.listenAsks t k
            [writeback s.listen[k].ring.ci
              [completionWord2 .ok d.length, completionWord3 s.stamp (some last.sequence)]]
            (Listen.due { s.listen[k] with
              requests := es ++ [{ purpose := .writeback, stale := false, index := s.listen[k].ring.ci, words := 2,
                                   ok := true, event := d.event }]
              lastSequence := none, inWrite := s.listen[k].inWrite.drop e.words
              ring := { s.listen[k].ring with
                ci := s.listen[k].ring.ci + 1, current := s.listen[k].ring.ahead, ahead := none, position := 0 } }) ∧
          t.listen[k].ring.ci = s.listen[k].ring.ci + 1 ∧ t.listen[k].ring.position = 0 ∧
          (s.listen[k].ring.ahead.isSome = true → t.listen[k].ring.current = s.listen[k].ring.ahead) ∧
          t.listen[k].lastSequence = none ∧
          t.listen[k].inWrite ++ t.listen[k].waiting = s.listen[k].inWrite.drop e.words ++ s.listen[k].waiting ∧
          t.listen[k].bound = s.listen[k].bound ∧ t.listen[k].close = s.listen[k].close ∧
          t.hpt.mailbox = s.hpt.mailbox ∧
          t.mpt.waiting[listenChannel k] = s.mpt.waiting[listenChannel k] ++
            writeback s.listen[k].ring.ci
              [completionWord2 .ok d.length, completionWord3 s.stamp (some last.sequence)] :: later ∧
          ∀ x ∈ later, x.purpose ≠ .writeback)) ∧
    (s.listen[k].close = .applied → ¬ writesLeft es →
      (n < d.length → ∃ t, exec (.memoryResponse false data) s = .next t ∧ s.listenCloses t k ∧
        t.listen[k].ring.ci = s.listen[k].ring.ci + 1 ∧
        t.mpt.waiting[listenChannel k] = s.mpt.waiting[listenChannel k] ++
          [writeback s.listen[k].ring.ci
            [completionWord2 .partialUse n, completionWord3 s.stamp (some last.sequence)]]) ∧
      (n = d.length → d.final = false →
        s.listen[k].ring.ahead = none ∨ s.listen[k].ring.ahead = some .fetching ∨
          (∃ a, s.listen[k].ring.ahead = some (.held a)) →
        ∃ t, exec (.memoryResponse false data) s = .next t ∧ s.listenCloses t k ∧
          t.listen[k].ring.ci = s.listen[k].ring.ci + 1 ∧
          t.mpt.waiting[listenChannel k] = s.mpt.waiting[listenChannel k] ++
            [writeback s.listen[k].ring.ci
              [completionWord2 .ok d.length, completionWord3 s.stamp (some last.sequence)]])) ∧
    (n = d.length → ∀ (cause : HaltCause) (detail : Nat) (later : List MemRequest),
      ((d.final = true ∧ cause = .endBuffer ∧ detail = 3 ∧ later = []) ∨
        (d.final = false ∧ (∃ b, s.listen[k].ring.ahead = some (.bad b)) ∧ cause = .badDescriptor ∧ detail = 1 ∧
          later = [writeback (s.listen[k].ring.ci + 1) [completionWord2 .bad 0, completionWord3 s.stamp none]]) ∨
        (d.final = false ∧ s.listen[k].ring.ahead = some .fetchError ∧ cause = .memory ∧
          detail = 2 + 256 * (s.listen[k].ring.ci + 1).val ∧ later = [])) →
      ∃ t, exec (.memoryResponse false data) s = .next t ∧ s.listenHalts t k cause ∧
        t.listen[k].ring.ci = s.listen[k].ring.ci + 1 ∧ s.reports t (haltRecord (listenChannel k) detail) ∧
        t.mpt.waiting[listenChannel k] = s.mpt.waiting[listenChannel k] ++
          writeback s.listen[k].ring.ci
            [completionWord2 .ok d.length, completionWord3 s.stamp (some last.sequence)] :: later) ∧
    (∃ t, exec (.memoryResponse true data) s = .next t ∧ s.listenHalts t k .memory ∧
      t.listen[k].ring.ci = s.listen[k].ring.ci + 1 ∧
      s.reports t (haltRecord (listenChannel k) (2 + 256 * s.listen[k].ring.ci.val)) ∧
      t.mpt.waiting[listenChannel k] = s.mpt.waiting[listenChannel k] ++
        [writeback s.listen[k].ring.ci
          [completionWord2 .memory s.listen[k].ring.position,
           completionWord3 s.stamp
             (if s.listen[k].ring.position = 0 then none else s.listen[k].lastSequence)]])

/-- A Fill index write and a response of the host bus work on one channel (R90, R140, R144, R157): everything outside
it is unchanged, requests and records join at the tails, a talk channel's END buffer may queue its RELEASE (R69), and a
listen channel's CLOSE may complete (R138, R154). A Fill index write never involves the mailbox. -/
def Obligations.ChannelEventsStayInTheirChannel : Prop :=
  (∀ (s t : State) (c : ChannelId) (value : Word), exec (.fillIndexWrite c value) s = .next t →
    s.onlyChannelWorked t c ∧ t.mpt.outstanding = s.mpt.outstanding ∧ t.hpt.mailbox = s.hpt.mailbox) ∧
  (∀ (s t : State) (r : MemRequest) (rest : List MemRequest) (error : Bool) (data : Vector Word 8),
    s.mpt.outstanding = r :: rest → s.mpt.absorb = 0 → exec (.memoryResponse error data) s = .next t →
    s.onlyChannelWorked t r.requester ∧ t.mpt.outstanding = rest)

/-- No event of the line, of the blocks or of the memory bus changes the host's words, the START record, POWER_UP,
COMMAND_LOST or the head words, clears a sticky flag, or takes a record out of the event queue (R24, R38, R150, R151,
R160, R161, R167, R169). -/
def Obligations.EventsKeepTheHostSide : Prop :=
  ∀ (s t : State) (c : Instr), fromHost c = false → exec c s = .next t → s.hostSideKept t

/-! ## Formats (chapter 11) -/

/-- A claim message is read back from the bits it is sent as, its check good, for every value of every field (R172,
R173); the marker of every shape is read with its pattern, its code and a good check. -/
def Obligations.ClaimMessagesAndMarkersReadBack : Prop :=
  (∀ m : ClaimMessage, messageOf m.bits = m ∧ messageGood m.bits = true) ∧
  (∀ shape : Shape, markerPatternOf (ownMarker shape) = 0x16CF#16 ∧ markerCodeOf (ownMarker shape) = shape.code ∧
    markerGood (ownMarker shape) = true)

/-- A burst of at most 8 words with a tag, and with none if it is FILL, is received as it was sent, for every value of
every field (R16, R172, R173); its start bit is dominant. -/
def Obligations.BurstsReadBack : Prop :=
  ∀ b : Burst, b.words.length ≤ 8 → b.tag ≠ 0 → (b.kind = .fill → b.words = []) →
    b.line.valid = some b ∧ b.line.count = b.words.length ∧ b.line.header.getMsbD 0 = false

/-- The completion words and the fields of a descriptor (R174): DONE, the result and the words transferred; the stamp
and the sequence with its presence bit; the rest 0; the address in word 0, the length in bits 13:0 of word 1, EVENT in
bit 30, END in bit 31; and bits 29:14 of word 1 are ignored. -/
def Obligations.DescriptorWordsCarryTheirFields : Prop :=
  (∀ (result : WritebackResult) (n : Nat), n < 16384 →
    (completionWord2 result n).extractLsb' 0 14 = BitVec.ofNat 14 n ∧
    (completionWord2 result n).extractLsb' 14 14 = 0 ∧
    ((completionWord2 result n).extractLsb' 28 2).toNat = result.code ∧
    (completionWord2 result n).getLsbD 30 = false ∧ (completionWord2 result n).getLsbD 31 = true) ∧
  (∀ (stamp : BitVec 16) (sequence : Option (BitVec 4)),
    (completionWord3 stamp sequence).extractLsb' 0 16 = stamp ∧
    (completionWord3 stamp sequence).extractLsb' 16 4 = 0 ∧
    (completionWord3 stamp sequence).extractLsb' 20 4 = sequence.getD 0 ∧
    (completionWord3 stamp sequence).getLsbD 24 = sequence.isSome ∧
    (completionWord3 stamp sequence).extractLsb' 25 7 = 0) ∧
  (∀ w0 w1 : Word, descriptorOf w0 w1 =
    { address := w0, length := (w1.extractLsb' 0 14).toNat, event := w1.getLsbD 30, final := w1.getLsbD 31 }) ∧
  (∀ w0 w1 w1' : Word, w1.extractLsb' 0 14 = w1'.extractLsb' 0 14 → w1.extractLsb' 30 2 = w1'.extractLsb' 30 2 →
    descriptorOf w0 w1 = descriptorOf w0 w1')

/-! ## Invariants that every step keeps -/

/-- The event queue never holds more than 32 records (R167), whatever command is taken. -/
def Obligations.EventQueueStaysWithinItsPlaces : Prop :=
  ∀ s t : State, s.eventsBounded → step s = .next t → t.eventsBounded

/-- At most 4 requests are outstanding and the absorb count never exceeds their number (R141, R148). -/
def Obligations.MemoryPortStaysWithinItsPlaces : Prop :=
  ∀ s t : State, s.portBounded → step s = .next t → t.portBounded

/-- The claim queue holds at most one request for any talk channel (R65), and so at most 8. -/
def Obligations.ClaimQueueHoldsOneRequestAChannel : Prop :=
  ∀ s t : State, s.claimsDistinct → step s = .next t → t.claimsDistinct ∧ t.cle.queue.length ≤ 8

/-- The map's counts stay in their bounds and its unused entries FREE (R41); and in a link state an entry is OWNED by the
station itself exactly where a talk channel is bound to its slot, no two to one slot, while off the link none is bound
(R42) and no boundary work waits (R8). -/
def Obligations.MapStaysInItsBounds : Prop :=
  ∀ s t : State, step s = .next t →
    (s.mapBounded → s.unusedFree → t.mapBounded ∧ t.unusedFree) ∧ (s.bindingsAgree → t.bindingsAgree)

/-- The fault cause is present in FAULT only (R22), a START record is held in every state but OFF (R22 to R24, R40) and
is in range (R23, R24), and the counts stay in their ranges (R18, R22, R26, R167). -/
def Obligations.StationStaysConsistent : Prop :=
  ∀ s t : State, s.causeOnlyInFault → s.recordExceptInOff → s.recordInRange → s.countsBounded → step s = .next t →
    t.causeOnlyInFault ∧ t.recordExceptInOff ∧ t.recordInRange ∧ t.countsBounded

/-- The ring law of every channel (R87, R88, R93, R102): the count is never smaller than the number of taken descriptors,
and at most one fetch that is not stale is outstanding. -/
def Obligations.RingLawIsKept : Prop :=
  ∀ s t : State, s.ringsLawful → step s = .next t → t.ringsLawful

/-- No listen channel's deposit ever holds more than 16 words (R122, R129), and no talk channel's staging, the words of
the reads that are to join it counted in (R105, R108). -/
def Obligations.DepositsStayWithinTheirRoom : Prop :=
  ∀ s t : State, step s = .next t →
    (s.depositsBounded → t.depositsBounded) ∧ (s.stagingBounded → t.stagingBounded)

/-- The state after reset meets every one of these invariants, and idles. -/
def Obligations.ResetMeetsTheInvariants : Prop :=
  State.reset.eventsBounded ∧ State.reset.portBounded ∧ State.reset.claimsDistinct ∧ State.reset.mapBounded ∧
    State.reset.unusedFree ∧ State.reset.causeOnlyInFault ∧ State.reset.recordExceptInOff ∧
    State.reset.recordInRange ∧ State.reset.countsBounded ∧ State.reset.ringsLawful ∧
    State.reset.depositsBounded ∧ State.reset.bindingsAgree ∧ State.reset.stagingBounded ∧ step State.reset = .next State.reset
end

