-- ==== Sys2Proof/Laws/State.lean ====
section
/-! SUPPORT. One lemma per field per update of State, each true by definition: no later proof unfolds a record
update. -/

namespace Sys2Proof.Machine

variable (s : State)

@[simp] theorem State.setStc_stc (v : Stc) : (s.setStc v).stc = v := rfl
@[simp] theorem State.setStc_rtm (v : Stc) : (s.setStc v).rtm = s.rtm := rfl
@[simp] theorem State.setStc_lif (v : Stc) : (s.setStc v).lif = s.lif := rfl
@[simp] theorem State.setStc_smap (v : Stc) : (s.setStc v).smap = s.smap := rfl
@[simp] theorem State.setStc_cle (v : Stc) : (s.setStc v).cle = s.cle := rfl
@[simp] theorem State.setStc_talk (v : Stc) : (s.setStc v).talk = s.talk := rfl
@[simp] theorem State.setStc_listen (v : Stc) : (s.setStc v).listen = s.listen := rfl
@[simp] theorem State.setStc_mpt (v : Stc) : (s.setStc v).mpt = s.mpt := rfl
@[simp] theorem State.setStc_hpt (v : Stc) : (s.setStc v).hpt = s.hpt := rfl
@[simp] theorem State.setStc_evq (v : Stc) : (s.setStc v).evq = s.evq := rfl
@[simp] theorem State.setStc_boundary (v : Stc) : (s.setStc v).boundary = s.boundary := rfl
@[simp] theorem State.setStc_rstHeld (v : Stc) : (s.setStc v).rstHeld = s.rstHeld := rfl
@[simp] theorem State.setStc_pending (v : Stc) : (s.setStc v).pending = s.pending := rfl

@[simp] theorem State.setRtm_stc (v : Rtm) : (s.setRtm v).stc = s.stc := rfl
@[simp] theorem State.setRtm_rtm (v : Rtm) : (s.setRtm v).rtm = v := rfl
@[simp] theorem State.setRtm_lif (v : Rtm) : (s.setRtm v).lif = s.lif := rfl
@[simp] theorem State.setRtm_smap (v : Rtm) : (s.setRtm v).smap = s.smap := rfl
@[simp] theorem State.setRtm_cle (v : Rtm) : (s.setRtm v).cle = s.cle := rfl
@[simp] theorem State.setRtm_talk (v : Rtm) : (s.setRtm v).talk = s.talk := rfl
@[simp] theorem State.setRtm_listen (v : Rtm) : (s.setRtm v).listen = s.listen := rfl
@[simp] theorem State.setRtm_mpt (v : Rtm) : (s.setRtm v).mpt = s.mpt := rfl
@[simp] theorem State.setRtm_hpt (v : Rtm) : (s.setRtm v).hpt = s.hpt := rfl
@[simp] theorem State.setRtm_evq (v : Rtm) : (s.setRtm v).evq = s.evq := rfl
@[simp] theorem State.setRtm_boundary (v : Rtm) : (s.setRtm v).boundary = s.boundary := rfl
@[simp] theorem State.setRtm_rstHeld (v : Rtm) : (s.setRtm v).rstHeld = s.rstHeld := rfl
@[simp] theorem State.setRtm_pending (v : Rtm) : (s.setRtm v).pending = s.pending := rfl

@[simp] theorem State.setLif_stc (v : Lif) : (s.setLif v).stc = s.stc := rfl
@[simp] theorem State.setLif_rtm (v : Lif) : (s.setLif v).rtm = s.rtm := rfl
@[simp] theorem State.setLif_lif (v : Lif) : (s.setLif v).lif = v := rfl
@[simp] theorem State.setLif_smap (v : Lif) : (s.setLif v).smap = s.smap := rfl
@[simp] theorem State.setLif_cle (v : Lif) : (s.setLif v).cle = s.cle := rfl
@[simp] theorem State.setLif_talk (v : Lif) : (s.setLif v).talk = s.talk := rfl
@[simp] theorem State.setLif_listen (v : Lif) : (s.setLif v).listen = s.listen := rfl
@[simp] theorem State.setLif_mpt (v : Lif) : (s.setLif v).mpt = s.mpt := rfl
@[simp] theorem State.setLif_hpt (v : Lif) : (s.setLif v).hpt = s.hpt := rfl
@[simp] theorem State.setLif_evq (v : Lif) : (s.setLif v).evq = s.evq := rfl
@[simp] theorem State.setLif_boundary (v : Lif) : (s.setLif v).boundary = s.boundary := rfl
@[simp] theorem State.setLif_rstHeld (v : Lif) : (s.setLif v).rstHeld = s.rstHeld := rfl
@[simp] theorem State.setLif_pending (v : Lif) : (s.setLif v).pending = s.pending := rfl

@[simp] theorem State.setSmap_stc (v : Smap) : (s.setSmap v).stc = s.stc := rfl
@[simp] theorem State.setSmap_rtm (v : Smap) : (s.setSmap v).rtm = s.rtm := rfl
@[simp] theorem State.setSmap_lif (v : Smap) : (s.setSmap v).lif = s.lif := rfl
@[simp] theorem State.setSmap_smap (v : Smap) : (s.setSmap v).smap = v := rfl
@[simp] theorem State.setSmap_cle (v : Smap) : (s.setSmap v).cle = s.cle := rfl
@[simp] theorem State.setSmap_talk (v : Smap) : (s.setSmap v).talk = s.talk := rfl
@[simp] theorem State.setSmap_listen (v : Smap) : (s.setSmap v).listen = s.listen := rfl
@[simp] theorem State.setSmap_mpt (v : Smap) : (s.setSmap v).mpt = s.mpt := rfl
@[simp] theorem State.setSmap_hpt (v : Smap) : (s.setSmap v).hpt = s.hpt := rfl
@[simp] theorem State.setSmap_evq (v : Smap) : (s.setSmap v).evq = s.evq := rfl
@[simp] theorem State.setSmap_boundary (v : Smap) : (s.setSmap v).boundary = s.boundary := rfl
@[simp] theorem State.setSmap_rstHeld (v : Smap) : (s.setSmap v).rstHeld = s.rstHeld := rfl
@[simp] theorem State.setSmap_pending (v : Smap) : (s.setSmap v).pending = s.pending := rfl

@[simp] theorem State.setCle_stc (v : Cle) : (s.setCle v).stc = s.stc := rfl
@[simp] theorem State.setCle_rtm (v : Cle) : (s.setCle v).rtm = s.rtm := rfl
@[simp] theorem State.setCle_lif (v : Cle) : (s.setCle v).lif = s.lif := rfl
@[simp] theorem State.setCle_smap (v : Cle) : (s.setCle v).smap = s.smap := rfl
@[simp] theorem State.setCle_cle (v : Cle) : (s.setCle v).cle = v := rfl
@[simp] theorem State.setCle_talk (v : Cle) : (s.setCle v).talk = s.talk := rfl
@[simp] theorem State.setCle_listen (v : Cle) : (s.setCle v).listen = s.listen := rfl
@[simp] theorem State.setCle_mpt (v : Cle) : (s.setCle v).mpt = s.mpt := rfl
@[simp] theorem State.setCle_hpt (v : Cle) : (s.setCle v).hpt = s.hpt := rfl
@[simp] theorem State.setCle_evq (v : Cle) : (s.setCle v).evq = s.evq := rfl
@[simp] theorem State.setCle_boundary (v : Cle) : (s.setCle v).boundary = s.boundary := rfl
@[simp] theorem State.setCle_rstHeld (v : Cle) : (s.setCle v).rstHeld = s.rstHeld := rfl
@[simp] theorem State.setCle_pending (v : Cle) : (s.setCle v).pending = s.pending := rfl

@[simp] theorem State.setMpt_stc (v : Mpt) : (s.setMpt v).stc = s.stc := rfl
@[simp] theorem State.setMpt_rtm (v : Mpt) : (s.setMpt v).rtm = s.rtm := rfl
@[simp] theorem State.setMpt_lif (v : Mpt) : (s.setMpt v).lif = s.lif := rfl
@[simp] theorem State.setMpt_smap (v : Mpt) : (s.setMpt v).smap = s.smap := rfl
@[simp] theorem State.setMpt_cle (v : Mpt) : (s.setMpt v).cle = s.cle := rfl
@[simp] theorem State.setMpt_talk (v : Mpt) : (s.setMpt v).talk = s.talk := rfl
@[simp] theorem State.setMpt_listen (v : Mpt) : (s.setMpt v).listen = s.listen := rfl
@[simp] theorem State.setMpt_mpt (v : Mpt) : (s.setMpt v).mpt = v := rfl
@[simp] theorem State.setMpt_hpt (v : Mpt) : (s.setMpt v).hpt = s.hpt := rfl
@[simp] theorem State.setMpt_evq (v : Mpt) : (s.setMpt v).evq = s.evq := rfl
@[simp] theorem State.setMpt_boundary (v : Mpt) : (s.setMpt v).boundary = s.boundary := rfl
@[simp] theorem State.setMpt_rstHeld (v : Mpt) : (s.setMpt v).rstHeld = s.rstHeld := rfl
@[simp] theorem State.setMpt_pending (v : Mpt) : (s.setMpt v).pending = s.pending := rfl

@[simp] theorem State.setHpt_stc (v : Hpt) : (s.setHpt v).stc = s.stc := rfl
@[simp] theorem State.setHpt_rtm (v : Hpt) : (s.setHpt v).rtm = s.rtm := rfl
@[simp] theorem State.setHpt_lif (v : Hpt) : (s.setHpt v).lif = s.lif := rfl
@[simp] theorem State.setHpt_smap (v : Hpt) : (s.setHpt v).smap = s.smap := rfl
@[simp] theorem State.setHpt_cle (v : Hpt) : (s.setHpt v).cle = s.cle := rfl
@[simp] theorem State.setHpt_talk (v : Hpt) : (s.setHpt v).talk = s.talk := rfl
@[simp] theorem State.setHpt_listen (v : Hpt) : (s.setHpt v).listen = s.listen := rfl
@[simp] theorem State.setHpt_mpt (v : Hpt) : (s.setHpt v).mpt = s.mpt := rfl
@[simp] theorem State.setHpt_hpt (v : Hpt) : (s.setHpt v).hpt = v := rfl
@[simp] theorem State.setHpt_evq (v : Hpt) : (s.setHpt v).evq = s.evq := rfl
@[simp] theorem State.setHpt_boundary (v : Hpt) : (s.setHpt v).boundary = s.boundary := rfl
@[simp] theorem State.setHpt_rstHeld (v : Hpt) : (s.setHpt v).rstHeld = s.rstHeld := rfl
@[simp] theorem State.setHpt_pending (v : Hpt) : (s.setHpt v).pending = s.pending := rfl

@[simp] theorem State.setEvq_stc (v : Evq) : (s.setEvq v).stc = s.stc := rfl
@[simp] theorem State.setEvq_rtm (v : Evq) : (s.setEvq v).rtm = s.rtm := rfl
@[simp] theorem State.setEvq_lif (v : Evq) : (s.setEvq v).lif = s.lif := rfl
@[simp] theorem State.setEvq_smap (v : Evq) : (s.setEvq v).smap = s.smap := rfl
@[simp] theorem State.setEvq_cle (v : Evq) : (s.setEvq v).cle = s.cle := rfl
@[simp] theorem State.setEvq_talk (v : Evq) : (s.setEvq v).talk = s.talk := rfl
@[simp] theorem State.setEvq_listen (v : Evq) : (s.setEvq v).listen = s.listen := rfl
@[simp] theorem State.setEvq_mpt (v : Evq) : (s.setEvq v).mpt = s.mpt := rfl
@[simp] theorem State.setEvq_hpt (v : Evq) : (s.setEvq v).hpt = s.hpt := rfl
@[simp] theorem State.setEvq_evq (v : Evq) : (s.setEvq v).evq = v := rfl
@[simp] theorem State.setEvq_boundary (v : Evq) : (s.setEvq v).boundary = s.boundary := rfl
@[simp] theorem State.setEvq_rstHeld (v : Evq) : (s.setEvq v).rstHeld = s.rstHeld := rfl
@[simp] theorem State.setEvq_pending (v : Evq) : (s.setEvq v).pending = s.pending := rfl

@[simp] theorem State.setBoundary_stc (v : BoundaryWork) : (s.setBoundary v).stc = s.stc := rfl
@[simp] theorem State.setBoundary_rtm (v : BoundaryWork) : (s.setBoundary v).rtm = s.rtm := rfl
@[simp] theorem State.setBoundary_lif (v : BoundaryWork) : (s.setBoundary v).lif = s.lif := rfl
@[simp] theorem State.setBoundary_smap (v : BoundaryWork) : (s.setBoundary v).smap = s.smap := rfl
@[simp] theorem State.setBoundary_cle (v : BoundaryWork) : (s.setBoundary v).cle = s.cle := rfl
@[simp] theorem State.setBoundary_talk (v : BoundaryWork) : (s.setBoundary v).talk = s.talk := rfl
@[simp] theorem State.setBoundary_listen (v : BoundaryWork) : (s.setBoundary v).listen = s.listen := rfl
@[simp] theorem State.setBoundary_mpt (v : BoundaryWork) : (s.setBoundary v).mpt = s.mpt := rfl
@[simp] theorem State.setBoundary_hpt (v : BoundaryWork) : (s.setBoundary v).hpt = s.hpt := rfl
@[simp] theorem State.setBoundary_evq (v : BoundaryWork) : (s.setBoundary v).evq = s.evq := rfl
@[simp] theorem State.setBoundary_boundary (v : BoundaryWork) : (s.setBoundary v).boundary = v := rfl
@[simp] theorem State.setBoundary_rstHeld (v : BoundaryWork) : (s.setBoundary v).rstHeld = s.rstHeld := rfl
@[simp] theorem State.setBoundary_pending (v : BoundaryWork) : (s.setBoundary v).pending = s.pending := rfl

@[simp] theorem State.setRstHeld_stc (v : Bool) : (s.setRstHeld v).stc = s.stc := rfl
@[simp] theorem State.setRstHeld_rtm (v : Bool) : (s.setRstHeld v).rtm = s.rtm := rfl
@[simp] theorem State.setRstHeld_lif (v : Bool) : (s.setRstHeld v).lif = s.lif := rfl
@[simp] theorem State.setRstHeld_smap (v : Bool) : (s.setRstHeld v).smap = s.smap := rfl
@[simp] theorem State.setRstHeld_cle (v : Bool) : (s.setRstHeld v).cle = s.cle := rfl
@[simp] theorem State.setRstHeld_talk (v : Bool) : (s.setRstHeld v).talk = s.talk := rfl
@[simp] theorem State.setRstHeld_listen (v : Bool) : (s.setRstHeld v).listen = s.listen := rfl
@[simp] theorem State.setRstHeld_mpt (v : Bool) : (s.setRstHeld v).mpt = s.mpt := rfl
@[simp] theorem State.setRstHeld_hpt (v : Bool) : (s.setRstHeld v).hpt = s.hpt := rfl
@[simp] theorem State.setRstHeld_evq (v : Bool) : (s.setRstHeld v).evq = s.evq := rfl
@[simp] theorem State.setRstHeld_boundary (v : Bool) : (s.setRstHeld v).boundary = s.boundary := rfl
@[simp] theorem State.setRstHeld_rstHeld (v : Bool) : (s.setRstHeld v).rstHeld = v := rfl
@[simp] theorem State.setRstHeld_pending (v : Bool) : (s.setRstHeld v).pending = s.pending := rfl

@[simp] theorem State.setTalk_stc (k : TalkId) (v : Talk) : (s.setTalk k v).stc = s.stc := rfl
@[simp] theorem State.setTalk_rtm (k : TalkId) (v : Talk) : (s.setTalk k v).rtm = s.rtm := rfl
@[simp] theorem State.setTalk_lif (k : TalkId) (v : Talk) : (s.setTalk k v).lif = s.lif := rfl
@[simp] theorem State.setTalk_smap (k : TalkId) (v : Talk) : (s.setTalk k v).smap = s.smap := rfl
@[simp] theorem State.setTalk_cle (k : TalkId) (v : Talk) : (s.setTalk k v).cle = s.cle := rfl
@[simp] theorem State.setTalk_talk (k : TalkId) (v : Talk) : (s.setTalk k v).talk = s.talk.set k v := rfl
@[simp] theorem State.setTalk_listen (k : TalkId) (v : Talk) : (s.setTalk k v).listen = s.listen := rfl
@[simp] theorem State.setTalk_mpt (k : TalkId) (v : Talk) : (s.setTalk k v).mpt = s.mpt := rfl
@[simp] theorem State.setTalk_hpt (k : TalkId) (v : Talk) : (s.setTalk k v).hpt = s.hpt := rfl
@[simp] theorem State.setTalk_evq (k : TalkId) (v : Talk) : (s.setTalk k v).evq = s.evq := rfl
@[simp] theorem State.setTalk_boundary (k : TalkId) (v : Talk) : (s.setTalk k v).boundary = s.boundary := rfl
@[simp] theorem State.setTalk_rstHeld (k : TalkId) (v : Talk) : (s.setTalk k v).rstHeld = s.rstHeld := rfl
@[simp] theorem State.setTalk_pending (k : TalkId) (v : Talk) : (s.setTalk k v).pending = s.pending := rfl

@[simp] theorem State.setListen_stc (k : ListenId) (v : Listen) : (s.setListen k v).stc = s.stc := rfl
@[simp] theorem State.setListen_rtm (k : ListenId) (v : Listen) : (s.setListen k v).rtm = s.rtm := rfl
@[simp] theorem State.setListen_lif (k : ListenId) (v : Listen) : (s.setListen k v).lif = s.lif := rfl
@[simp] theorem State.setListen_smap (k : ListenId) (v : Listen) : (s.setListen k v).smap = s.smap := rfl
@[simp] theorem State.setListen_cle (k : ListenId) (v : Listen) : (s.setListen k v).cle = s.cle := rfl
@[simp] theorem State.setListen_talk (k : ListenId) (v : Listen) : (s.setListen k v).talk = s.talk := rfl
@[simp] theorem State.setListen_listen (k : ListenId) (v : Listen) : (s.setListen k v).listen = s.listen.set k v := rfl
@[simp] theorem State.setListen_mpt (k : ListenId) (v : Listen) : (s.setListen k v).mpt = s.mpt := rfl
@[simp] theorem State.setListen_hpt (k : ListenId) (v : Listen) : (s.setListen k v).hpt = s.hpt := rfl
@[simp] theorem State.setListen_evq (k : ListenId) (v : Listen) : (s.setListen k v).evq = s.evq := rfl
@[simp] theorem State.setListen_boundary (k : ListenId) (v : Listen) : (s.setListen k v).boundary = s.boundary := rfl
@[simp] theorem State.setListen_rstHeld (k : ListenId) (v : Listen) : (s.setListen k v).rstHeld = s.rstHeld := rfl
@[simp] theorem State.setListen_pending (k : ListenId) (v : Listen) : (s.setListen k v).pending = s.pending := rfl

@[simp] theorem State.setFlags_stc (f : Flags) : (s.setFlags f).stc = s.stc := rfl
@[simp] theorem State.setFlags_rtm (f : Flags) : (s.setFlags f).rtm = s.rtm := rfl
@[simp] theorem State.setFlags_lif (f : Flags) : (s.setFlags f).lif = s.lif := rfl
@[simp] theorem State.setFlags_smap (f : Flags) : (s.setFlags f).smap = s.smap := rfl
@[simp] theorem State.setFlags_cle (f : Flags) : (s.setFlags f).cle = s.cle := rfl
@[simp] theorem State.setFlags_talk (f : Flags) : (s.setFlags f).talk = s.talk := rfl
@[simp] theorem State.setFlags_listen (f : Flags) : (s.setFlags f).listen = s.listen := rfl
@[simp] theorem State.setFlags_mpt (f : Flags) : (s.setFlags f).mpt = s.mpt := rfl
@[simp] theorem State.setFlags_hpt (f : Flags) : (s.setFlags f).hpt = { s.hpt with flags := f } := rfl
@[simp] theorem State.setFlags_evq (f : Flags) : (s.setFlags f).evq = s.evq := rfl
@[simp] theorem State.setFlags_boundary (f : Flags) : (s.setFlags f).boundary = s.boundary := rfl
@[simp] theorem State.setFlags_rstHeld (f : Flags) : (s.setFlags f).rstHeld = s.rstHeld := rfl
@[simp] theorem State.setFlags_pending (f : Flags) : (s.setFlags f).pending = s.pending := rfl

@[simp] theorem State.setMailbox_stc (m : Mailbox) : (s.setMailbox m).stc = s.stc := rfl
@[simp] theorem State.setMailbox_rtm (m : Mailbox) : (s.setMailbox m).rtm = s.rtm := rfl
@[simp] theorem State.setMailbox_lif (m : Mailbox) : (s.setMailbox m).lif = s.lif := rfl
@[simp] theorem State.setMailbox_smap (m : Mailbox) : (s.setMailbox m).smap = s.smap := rfl
@[simp] theorem State.setMailbox_cle (m : Mailbox) : (s.setMailbox m).cle = s.cle := rfl
@[simp] theorem State.setMailbox_talk (m : Mailbox) : (s.setMailbox m).talk = s.talk := rfl
@[simp] theorem State.setMailbox_listen (m : Mailbox) : (s.setMailbox m).listen = s.listen := rfl
@[simp] theorem State.setMailbox_mpt (m : Mailbox) : (s.setMailbox m).mpt = s.mpt := rfl
@[simp] theorem State.setMailbox_hpt (m : Mailbox) : (s.setMailbox m).hpt = { s.hpt with mailbox := m } := rfl
@[simp] theorem State.setMailbox_evq (m : Mailbox) : (s.setMailbox m).evq = s.evq := rfl
@[simp] theorem State.setMailbox_boundary (m : Mailbox) : (s.setMailbox m).boundary = s.boundary := rfl
@[simp] theorem State.setMailbox_rstHeld (m : Mailbox) : (s.setMailbox m).rstHeld = s.rstHeld := rfl
@[simp] theorem State.setMailbox_pending (m : Mailbox) : (s.setMailbox m).pending = s.pending := rfl

@[simp] theorem State.answer_stc (r : ResultCode) (code : BitVec 8) : (s.answer r code).stc = s.stc := rfl
@[simp] theorem State.answer_rtm (r : ResultCode) (code : BitVec 8) : (s.answer r code).rtm = s.rtm := rfl
@[simp] theorem State.answer_lif (r : ResultCode) (code : BitVec 8) : (s.answer r code).lif = s.lif := rfl
@[simp] theorem State.answer_smap (r : ResultCode) (code : BitVec 8) : (s.answer r code).smap = s.smap := rfl
@[simp] theorem State.answer_cle (r : ResultCode) (code : BitVec 8) : (s.answer r code).cle = s.cle := rfl
@[simp] theorem State.answer_talk (r : ResultCode) (code : BitVec 8) : (s.answer r code).talk = s.talk := rfl
@[simp] theorem State.answer_listen (r : ResultCode) (code : BitVec 8) : (s.answer r code).listen = s.listen := rfl
@[simp] theorem State.answer_mpt (r : ResultCode) (code : BitVec 8) : (s.answer r code).mpt = s.mpt := rfl
@[simp] theorem State.answer_hpt (r : ResultCode) (code : BitVec 8) : (s.answer r code).hpt = { s.hpt with mailbox := .done r code } := rfl
@[simp] theorem State.answer_evq (r : ResultCode) (code : BitVec 8) : (s.answer r code).evq = s.evq := rfl
@[simp] theorem State.answer_boundary (r : ResultCode) (code : BitVec 8) : (s.answer r code).boundary = s.boundary := rfl
@[simp] theorem State.answer_rstHeld (r : ResultCode) (code : BitVec 8) : (s.answer r code).rstHeld = s.rstHeld := rfl
@[simp] theorem State.answer_pending (r : ResultCode) (code : BitVec 8) : (s.answer r code).pending = s.pending := rfl

@[simp] theorem State.withPending_stc (q : List Instr) : (s.withPending q).stc = s.stc := rfl
@[simp] theorem State.withPending_rtm (q : List Instr) : (s.withPending q).rtm = s.rtm := rfl
@[simp] theorem State.withPending_lif (q : List Instr) : (s.withPending q).lif = s.lif := rfl
@[simp] theorem State.withPending_smap (q : List Instr) : (s.withPending q).smap = s.smap := rfl
@[simp] theorem State.withPending_cle (q : List Instr) : (s.withPending q).cle = s.cle := rfl
@[simp] theorem State.withPending_talk (q : List Instr) : (s.withPending q).talk = s.talk := rfl
@[simp] theorem State.withPending_listen (q : List Instr) : (s.withPending q).listen = s.listen := rfl
@[simp] theorem State.withPending_mpt (q : List Instr) : (s.withPending q).mpt = s.mpt := rfl
@[simp] theorem State.withPending_hpt (q : List Instr) : (s.withPending q).hpt = s.hpt := rfl
@[simp] theorem State.withPending_evq (q : List Instr) : (s.withPending q).evq = s.evq := rfl
@[simp] theorem State.withPending_boundary (q : List Instr) : (s.withPending q).boundary = s.boundary := rfl
@[simp] theorem State.withPending_rstHeld (q : List Instr) : (s.withPending q).rstHeld = s.rstHeld := rfl
@[simp] theorem State.withPending_pending (q : List Instr) : (s.withPending q).pending = q := rfl

@[simp] theorem State.setEntry_stc (i : Slot) (e : Entry) : (s.setEntry i e).stc = s.stc := rfl
@[simp] theorem State.setEntry_rtm (i : Slot) (e : Entry) : (s.setEntry i e).rtm = s.rtm := rfl
@[simp] theorem State.setEntry_lif (i : Slot) (e : Entry) : (s.setEntry i e).lif = s.lif := rfl
@[simp] theorem State.setEntry_smap (i : Slot) (e : Entry) : (s.setEntry i e).smap = { s.smap with entries := s.smap.entries.set i e } := rfl
@[simp] theorem State.setEntry_cle (i : Slot) (e : Entry) : (s.setEntry i e).cle = s.cle := rfl
@[simp] theorem State.setEntry_talk (i : Slot) (e : Entry) : (s.setEntry i e).talk = s.talk := rfl
@[simp] theorem State.setEntry_listen (i : Slot) (e : Entry) : (s.setEntry i e).listen = s.listen := rfl
@[simp] theorem State.setEntry_mpt (i : Slot) (e : Entry) : (s.setEntry i e).mpt = s.mpt := rfl
@[simp] theorem State.setEntry_hpt (i : Slot) (e : Entry) : (s.setEntry i e).hpt = s.hpt := rfl
@[simp] theorem State.setEntry_evq (i : Slot) (e : Entry) : (s.setEntry i e).evq = s.evq := rfl
@[simp] theorem State.setEntry_boundary (i : Slot) (e : Entry) : (s.setEntry i e).boundary = s.boundary := rfl
@[simp] theorem State.setEntry_rstHeld (i : Slot) (e : Entry) : (s.setEntry i e).rstHeld = s.rstHeld := rfl
@[simp] theorem State.setEntry_pending (i : Slot) (e : Entry) : (s.setEntry i e).pending = s.pending := rfl

@[simp] theorem State.observe_stc (i : Slot) (o : Observation) : (s.observe i o).stc = s.stc := rfl
@[simp] theorem State.observe_rtm (i : Slot) (o : Observation) : (s.observe i o).rtm = s.rtm := rfl
@[simp] theorem State.observe_lif (i : Slot) (o : Observation) : (s.observe i o).lif = s.lif := rfl
@[simp] theorem State.observe_smap (i : Slot) (o : Observation) : (s.observe i o).smap = { s.smap with observations := s.smap.observations.set i (some o) } := rfl
@[simp] theorem State.observe_cle (i : Slot) (o : Observation) : (s.observe i o).cle = s.cle := rfl
@[simp] theorem State.observe_talk (i : Slot) (o : Observation) : (s.observe i o).talk = s.talk := rfl
@[simp] theorem State.observe_listen (i : Slot) (o : Observation) : (s.observe i o).listen = s.listen := rfl
@[simp] theorem State.observe_mpt (i : Slot) (o : Observation) : (s.observe i o).mpt = s.mpt := rfl
@[simp] theorem State.observe_hpt (i : Slot) (o : Observation) : (s.observe i o).hpt = s.hpt := rfl
@[simp] theorem State.observe_evq (i : Slot) (o : Observation) : (s.observe i o).evq = s.evq := rfl
@[simp] theorem State.observe_boundary (i : Slot) (o : Observation) : (s.observe i o).boundary = s.boundary := rfl
@[simp] theorem State.observe_rstHeld (i : Slot) (o : Observation) : (s.observe i o).rstHeld = s.rstHeld := rfl
@[simp] theorem State.observe_pending (i : Slot) (o : Observation) : (s.observe i o).pending = s.pending := rfl

@[simp] theorem State.joinQueue_stc (r : ClaimRequest) : (s.joinQueue r).stc = s.stc := rfl
@[simp] theorem State.joinQueue_rtm (r : ClaimRequest) : (s.joinQueue r).rtm = s.rtm := rfl
@[simp] theorem State.joinQueue_lif (r : ClaimRequest) : (s.joinQueue r).lif = s.lif := rfl
@[simp] theorem State.joinQueue_smap (r : ClaimRequest) : (s.joinQueue r).smap = s.smap := rfl
@[simp] theorem State.joinQueue_cle (r : ClaimRequest) : (s.joinQueue r).cle = { s.cle with queue := s.cle.queue ++ [r] } := rfl
@[simp] theorem State.joinQueue_talk (r : ClaimRequest) : (s.joinQueue r).talk = s.talk := rfl
@[simp] theorem State.joinQueue_listen (r : ClaimRequest) : (s.joinQueue r).listen = s.listen := rfl
@[simp] theorem State.joinQueue_mpt (r : ClaimRequest) : (s.joinQueue r).mpt = s.mpt := rfl
@[simp] theorem State.joinQueue_hpt (r : ClaimRequest) : (s.joinQueue r).hpt = s.hpt := rfl
@[simp] theorem State.joinQueue_evq (r : ClaimRequest) : (s.joinQueue r).evq = s.evq := rfl
@[simp] theorem State.joinQueue_boundary (r : ClaimRequest) : (s.joinQueue r).boundary = s.boundary := rfl
@[simp] theorem State.joinQueue_rstHeld (r : ClaimRequest) : (s.joinQueue r).rstHeld = s.rstHeld := rfl
@[simp] theorem State.joinQueue_pending (r : ClaimRequest) : (s.joinQueue r).pending = s.pending := rfl

@[simp] theorem State.updateRequest_stc (k : TalkId) (f : ClaimRequest → ClaimRequest) : (s.updateRequest k f).stc = s.stc := rfl
@[simp] theorem State.updateRequest_rtm (k : TalkId) (f : ClaimRequest → ClaimRequest) : (s.updateRequest k f).rtm = s.rtm := rfl
@[simp] theorem State.updateRequest_lif (k : TalkId) (f : ClaimRequest → ClaimRequest) : (s.updateRequest k f).lif = s.lif := rfl
@[simp] theorem State.updateRequest_smap (k : TalkId) (f : ClaimRequest → ClaimRequest) : (s.updateRequest k f).smap = s.smap := rfl
@[simp] theorem State.updateRequest_cle (k : TalkId) (f : ClaimRequest → ClaimRequest) : (s.updateRequest k f).cle = { s.cle with queue := s.cle.queue.map fun r => if r.channel == k then f r else r } := rfl
@[simp] theorem State.updateRequest_talk (k : TalkId) (f : ClaimRequest → ClaimRequest) : (s.updateRequest k f).talk = s.talk := rfl
@[simp] theorem State.updateRequest_listen (k : TalkId) (f : ClaimRequest → ClaimRequest) : (s.updateRequest k f).listen = s.listen := rfl
@[simp] theorem State.updateRequest_mpt (k : TalkId) (f : ClaimRequest → ClaimRequest) : (s.updateRequest k f).mpt = s.mpt := rfl
@[simp] theorem State.updateRequest_hpt (k : TalkId) (f : ClaimRequest → ClaimRequest) : (s.updateRequest k f).hpt = s.hpt := rfl
@[simp] theorem State.updateRequest_evq (k : TalkId) (f : ClaimRequest → ClaimRequest) : (s.updateRequest k f).evq = s.evq := rfl
@[simp] theorem State.updateRequest_boundary (k : TalkId) (f : ClaimRequest → ClaimRequest) : (s.updateRequest k f).boundary = s.boundary := rfl
@[simp] theorem State.updateRequest_rstHeld (k : TalkId) (f : ClaimRequest → ClaimRequest) : (s.updateRequest k f).rstHeld = s.rstHeld := rfl
@[simp] theorem State.updateRequest_pending (k : TalkId) (f : ClaimRequest → ClaimRequest) : (s.updateRequest k f).pending = s.pending := rfl

@[simp] theorem State.enqueue_stc (c : ChannelId) (rs : List MemRequest) : (s.enqueue c rs).stc = s.stc := rfl
@[simp] theorem State.enqueue_rtm (c : ChannelId) (rs : List MemRequest) : (s.enqueue c rs).rtm = s.rtm := rfl
@[simp] theorem State.enqueue_lif (c : ChannelId) (rs : List MemRequest) : (s.enqueue c rs).lif = s.lif := rfl
@[simp] theorem State.enqueue_smap (c : ChannelId) (rs : List MemRequest) : (s.enqueue c rs).smap = s.smap := rfl
@[simp] theorem State.enqueue_cle (c : ChannelId) (rs : List MemRequest) : (s.enqueue c rs).cle = s.cle := rfl
@[simp] theorem State.enqueue_talk (c : ChannelId) (rs : List MemRequest) : (s.enqueue c rs).talk = s.talk := rfl
@[simp] theorem State.enqueue_listen (c : ChannelId) (rs : List MemRequest) : (s.enqueue c rs).listen = s.listen := rfl
@[simp] theorem State.enqueue_mpt (c : ChannelId) (rs : List MemRequest) : (s.enqueue c rs).mpt = { s.mpt with waiting := s.mpt.waiting.set c (s.mpt.waiting[c] ++ rs) } := rfl
@[simp] theorem State.enqueue_hpt (c : ChannelId) (rs : List MemRequest) : (s.enqueue c rs).hpt = s.hpt := rfl
@[simp] theorem State.enqueue_evq (c : ChannelId) (rs : List MemRequest) : (s.enqueue c rs).evq = s.evq := rfl
@[simp] theorem State.enqueue_boundary (c : ChannelId) (rs : List MemRequest) : (s.enqueue c rs).boundary = s.boundary := rfl
@[simp] theorem State.enqueue_rstHeld (c : ChannelId) (rs : List MemRequest) : (s.enqueue c rs).rstHeld = s.rstHeld := rfl
@[simp] theorem State.enqueue_pending (c : ChannelId) (rs : List MemRequest) : (s.enqueue c rs).pending = s.pending := rfl

@[simp] theorem State.reach_stc (time : Nat) : (s.reach time).stc = s.stc := rfl
@[simp] theorem State.reach_rtm (time : Nat) : (s.reach time).rtm = { s.rtm with elapsed := some (max s.now time) } := rfl
@[simp] theorem State.reach_lif (time : Nat) : (s.reach time).lif = s.lif := rfl
@[simp] theorem State.reach_smap (time : Nat) : (s.reach time).smap = s.smap := rfl
@[simp] theorem State.reach_cle (time : Nat) : (s.reach time).cle = s.cle := rfl
@[simp] theorem State.reach_talk (time : Nat) : (s.reach time).talk = s.talk := rfl
@[simp] theorem State.reach_listen (time : Nat) : (s.reach time).listen = s.listen := rfl
@[simp] theorem State.reach_mpt (time : Nat) : (s.reach time).mpt = s.mpt := rfl
@[simp] theorem State.reach_hpt (time : Nat) : (s.reach time).hpt = s.hpt := rfl
@[simp] theorem State.reach_evq (time : Nat) : (s.reach time).evq = s.evq := rfl
@[simp] theorem State.reach_boundary (time : Nat) : (s.reach time).boundary = s.boundary := rfl
@[simp] theorem State.reach_rstHeld (time : Nat) : (s.reach time).rstHeld = s.rstHeld := rfl
@[simp] theorem State.reach_pending (time : Nat) : (s.reach time).pending = s.pending := rfl

@[simp] theorem State.copy_stc (w : Nat → Word) : (s.copy w).stc = s.stc :=
  State.setHpt_stc s _
@[simp] theorem State.copy_rtm (w : Nat → Word) : (s.copy w).rtm = s.rtm :=
  State.setHpt_rtm s _
@[simp] theorem State.copy_lif (w : Nat → Word) : (s.copy w).lif = s.lif :=
  State.setHpt_lif s _
@[simp] theorem State.copy_smap (w : Nat → Word) : (s.copy w).smap = s.smap :=
  State.setHpt_smap s _
@[simp] theorem State.copy_cle (w : Nat → Word) : (s.copy w).cle = s.cle :=
  State.setHpt_cle s _
@[simp] theorem State.copy_talk (w : Nat → Word) : (s.copy w).talk = s.talk :=
  State.setHpt_talk s _
@[simp] theorem State.copy_listen (w : Nat → Word) : (s.copy w).listen = s.listen :=
  State.setHpt_listen s _
@[simp] theorem State.copy_mpt (w : Nat → Word) : (s.copy w).mpt = s.mpt :=
  State.setHpt_mpt s _
@[simp] theorem State.copy_hpt (w : Nat → Word) : (s.copy w).hpt = { s.hpt with snapshot := Vector.ofFn fun i => w i.val } :=
  State.setHpt_hpt s _
@[simp] theorem State.copy_evq (w : Nat → Word) : (s.copy w).evq = s.evq :=
  State.setHpt_evq s _
@[simp] theorem State.copy_boundary (w : Nat → Word) : (s.copy w).boundary = s.boundary :=
  State.setHpt_boundary s _
@[simp] theorem State.copy_rstHeld (w : Nat → Word) : (s.copy w).rstHeld = s.rstHeld :=
  State.setHpt_rstHeld s _
@[simp] theorem State.copy_pending (w : Nat → Word) : (s.copy w).pending = s.pending :=
  State.setHpt_pending s _

end Sys2Proof.Machine
end

