-- ==== Sys2Proof/Laws/Events.lean ====
section
/-! SUPPORT. What entering and making event records can do (R165 to R168): only the event queue and the flags of the
Host Port change. -/

namespace Sys2Proof.Machine

/-- A recorded record joins a queue that has a place (R167). -/
theorem State.enter_of_place {s : State} {r : EventRecord} (h : s.evq.queue.length < 32) :
    s.enter r = s.setEvq { s.evq with queue := s.evq.queue ++ [r] } := by
  simp [State.enter, Config.eventPlaces, h]

/-- A recorded record is dropped and counted at a full queue (R168). -/
theorem State.enter_of_full {s : State} {r : EventRecord} (h : 32 ≤ s.evq.queue.length) :
    s.enter r = (s.setEvq { s.evq with dropped := countUp 65535 s.evq.dropped 1 }).setFlags
      { s.hpt.flags with eventOverflow := true } := by
  have h' : ¬ s.evq.queue.length < 32 := by omega
  simp [State.enter, Config.eventPlaces, Config.countLimit, h']

/-- A record of a class the mask does not choose is not recorded (R166). -/
theorem State.post_of_masked {s : State} {r : EventRecord} (h : s.records r.kind = false) : s.post r = s := by
  simp [State.post, h]

/-- A record of a class that is recorded is entered with the round stamp (R165, R166). -/
theorem State.post_of_recorded {s : State} {r : EventRecord} (h : s.records r.kind = true) :
    s.post r = s.enter { r with stamp := s.stamp } := by
  simp [State.post, h]

@[simp] theorem State.enter_stc (s : State) (r : EventRecord) : (s.enter r).stc = s.stc := by
  unfold State.enter; split <;> rfl
@[simp] theorem State.enter_rtm (s : State) (r : EventRecord) : (s.enter r).rtm = s.rtm := by
  unfold State.enter; split <;> rfl
@[simp] theorem State.enter_lif (s : State) (r : EventRecord) : (s.enter r).lif = s.lif := by
  unfold State.enter; split <;> rfl
@[simp] theorem State.enter_smap (s : State) (r : EventRecord) : (s.enter r).smap = s.smap := by
  unfold State.enter; split <;> rfl
@[simp] theorem State.enter_cle (s : State) (r : EventRecord) : (s.enter r).cle = s.cle := by
  unfold State.enter; split <;> rfl
@[simp] theorem State.enter_talk (s : State) (r : EventRecord) : (s.enter r).talk = s.talk := by
  unfold State.enter; split <;> rfl
@[simp] theorem State.enter_listen (s : State) (r : EventRecord) : (s.enter r).listen = s.listen := by
  unfold State.enter; split <;> rfl
@[simp] theorem State.enter_mpt (s : State) (r : EventRecord) : (s.enter r).mpt = s.mpt := by
  unfold State.enter; split <;> rfl
@[simp] theorem State.enter_boundary (s : State) (r : EventRecord) : (s.enter r).boundary = s.boundary := by
  unfold State.enter; split <;> rfl
@[simp] theorem State.enter_rstHeld (s : State) (r : EventRecord) : (s.enter r).rstHeld = s.rstHeld := by
  unfold State.enter; split <;> rfl
@[simp] theorem State.enter_pending (s : State) (r : EventRecord) : (s.enter r).pending = s.pending := by
  unfold State.enter; split <;> rfl

@[simp] theorem State.post_stc (s : State) (r : EventRecord) : (s.post r).stc = s.stc := by
  unfold State.post; split <;> simp
@[simp] theorem State.post_rtm (s : State) (r : EventRecord) : (s.post r).rtm = s.rtm := by
  unfold State.post; split <;> simp
@[simp] theorem State.post_lif (s : State) (r : EventRecord) : (s.post r).lif = s.lif := by
  unfold State.post; split <;> simp
@[simp] theorem State.post_smap (s : State) (r : EventRecord) : (s.post r).smap = s.smap := by
  unfold State.post; split <;> simp
@[simp] theorem State.post_cle (s : State) (r : EventRecord) : (s.post r).cle = s.cle := by
  unfold State.post; split <;> simp
@[simp] theorem State.post_talk (s : State) (r : EventRecord) : (s.post r).talk = s.talk := by
  unfold State.post; split <;> simp
@[simp] theorem State.post_listen (s : State) (r : EventRecord) : (s.post r).listen = s.listen := by
  unfold State.post; split <;> simp
@[simp] theorem State.post_mpt (s : State) (r : EventRecord) : (s.post r).mpt = s.mpt := by
  unfold State.post; split <;> simp
@[simp] theorem State.post_boundary (s : State) (r : EventRecord) : (s.post r).boundary = s.boundary := by
  unfold State.post; split <;> simp
@[simp] theorem State.post_rstHeld (s : State) (r : EventRecord) : (s.post r).rstHeld = s.rstHeld := by
  unfold State.post; split <;> simp
@[simp] theorem State.post_pending (s : State) (r : EventRecord) : (s.post r).pending = s.pending := by
  unfold State.post; split <;> simp

@[simp] theorem State.postAll_stc (s : State) (rs : List EventRecord) : (s.postAll rs).stc = s.stc := by
  induction rs generalizing s with
  | nil => rfl
  | cons r rs ih => simp [State.postAll] at ih ⊢; rw [ih]; simp
@[simp] theorem State.postAll_rtm (s : State) (rs : List EventRecord) : (s.postAll rs).rtm = s.rtm := by
  induction rs generalizing s with
  | nil => rfl
  | cons r rs ih => simp [State.postAll] at ih ⊢; rw [ih]; simp
@[simp] theorem State.postAll_lif (s : State) (rs : List EventRecord) : (s.postAll rs).lif = s.lif := by
  induction rs generalizing s with
  | nil => rfl
  | cons r rs ih => simp [State.postAll] at ih ⊢; rw [ih]; simp
@[simp] theorem State.postAll_smap (s : State) (rs : List EventRecord) : (s.postAll rs).smap = s.smap := by
  induction rs generalizing s with
  | nil => rfl
  | cons r rs ih => simp [State.postAll] at ih ⊢; rw [ih]; simp
@[simp] theorem State.postAll_cle (s : State) (rs : List EventRecord) : (s.postAll rs).cle = s.cle := by
  induction rs generalizing s with
  | nil => rfl
  | cons r rs ih => simp [State.postAll] at ih ⊢; rw [ih]; simp
@[simp] theorem State.postAll_talk (s : State) (rs : List EventRecord) : (s.postAll rs).talk = s.talk := by
  induction rs generalizing s with
  | nil => rfl
  | cons r rs ih => simp [State.postAll] at ih ⊢; rw [ih]; simp
@[simp] theorem State.postAll_listen (s : State) (rs : List EventRecord) : (s.postAll rs).listen = s.listen := by
  induction rs generalizing s with
  | nil => rfl
  | cons r rs ih => simp [State.postAll] at ih ⊢; rw [ih]; simp
@[simp] theorem State.postAll_mpt (s : State) (rs : List EventRecord) : (s.postAll rs).mpt = s.mpt := by
  induction rs generalizing s with
  | nil => rfl
  | cons r rs ih => simp [State.postAll] at ih ⊢; rw [ih]; simp
@[simp] theorem State.postAll_boundary (s : State) (rs : List EventRecord) : (s.postAll rs).boundary = s.boundary := by
  induction rs generalizing s with
  | nil => rfl
  | cons r rs ih => simp [State.postAll] at ih ⊢; rw [ih]; simp
@[simp] theorem State.postAll_rstHeld (s : State) (rs : List EventRecord) : (s.postAll rs).rstHeld = s.rstHeld := by
  induction rs generalizing s with
  | nil => rfl
  | cons r rs ih => simp [State.postAll] at ih ⊢; rw [ih]; simp
@[simp] theorem State.postAll_pending (s : State) (rs : List EventRecord) : (s.postAll rs).pending = s.pending := by
  induction rs generalizing s with
  | nil => rfl
  | cons r rs ih => simp [State.postAll] at ih ⊢; rw [ih]; simp

@[simp] theorem State.postAll_nil (s : State) : s.postAll [] = s := rfl

@[simp] theorem State.postAll_cons (s : State) (r : EventRecord) (rs : List EventRecord) :
    s.postAll (r :: rs) = (s.post r).postAll rs := rfl

theorem State.postAll_append (s : State) (a b : List EventRecord) :
    s.postAll (a ++ b) = (s.postAll a).postAll b := by
  simp [State.postAll]

@[simp] theorem State.enter_hpt_mailbox (s : State) (r : EventRecord) : (s.enter r).hpt.mailbox = s.hpt.mailbox := by
  unfold State.enter; split <;> rfl
@[simp] theorem State.post_hpt_mailbox (s : State) (r : EventRecord) : (s.post r).hpt.mailbox = s.hpt.mailbox := by
  unfold State.post; split <;> simp
@[simp] theorem State.postAll_hpt_mailbox (s : State) (rs : List EventRecord) :
    (s.postAll rs).hpt.mailbox = s.hpt.mailbox := by
  induction rs generalizing s with
  | nil => rfl
  | cons r rs ih => simp [State.postAll] at ih ⊢; rw [ih]; simp
@[simp] theorem State.enter_hpt_code (s : State) (r : EventRecord) : (s.enter r).hpt.code = s.hpt.code := by
  unfold State.enter; split <;> rfl
@[simp] theorem State.post_hpt_code (s : State) (r : EventRecord) : (s.post r).hpt.code = s.hpt.code := by
  unfold State.post; split <;> simp
@[simp] theorem State.postAll_hpt_code (s : State) (rs : List EventRecord) :
    (s.postAll rs).hpt.code = s.hpt.code := by
  induction rs generalizing s with
  | nil => rfl
  | cons r rs ih => simp [State.postAll] at ih ⊢; rw [ih]; simp
@[simp] theorem State.enter_hpt_params (s : State) (r : EventRecord) : (s.enter r).hpt.params = s.hpt.params := by
  unfold State.enter; split <;> rfl
@[simp] theorem State.post_hpt_params (s : State) (r : EventRecord) : (s.post r).hpt.params = s.hpt.params := by
  unfold State.post; split <;> simp
@[simp] theorem State.postAll_hpt_params (s : State) (rs : List EventRecord) :
    (s.postAll rs).hpt.params = s.hpt.params := by
  induction rs generalizing s with
  | nil => rfl
  | cons r rs ih => simp [State.postAll] at ih ⊢; rw [ih]; simp
@[simp] theorem State.enter_hpt_snapshot (s : State) (r : EventRecord) : (s.enter r).hpt.snapshot = s.hpt.snapshot := by
  unfold State.enter; split <;> rfl
@[simp] theorem State.post_hpt_snapshot (s : State) (r : EventRecord) : (s.post r).hpt.snapshot = s.hpt.snapshot := by
  unfold State.post; split <;> simp
@[simp] theorem State.postAll_hpt_snapshot (s : State) (rs : List EventRecord) :
    (s.postAll rs).hpt.snapshot = s.hpt.snapshot := by
  induction rs generalizing s with
  | nil => rfl
  | cons r rs ih => simp [State.postAll] at ih ⊢; rw [ih]; simp

/-- Making a record keeps the queue within its 32 places (R167). -/
theorem State.post_queue_length {s : State} (r : EventRecord) (h : s.evq.queue.length ≤ 32) :
    (s.post r).evq.queue.length ≤ 32 := by
  unfold State.post State.enter Config.eventPlaces
  split
  · split
    · simp; omega
    · simpa using h
  · exact h

/-- Making records keeps the queue within its 32 places (R167). -/
theorem State.postAll_queue_length {s : State} (rs : List EventRecord) (h : s.evq.queue.length ≤ 32) :
    (s.postAll rs).evq.queue.length ≤ 32 := by
  induction rs generalizing s with
  | nil => exact h
  | cons r rs ih => exact ih (State.post_queue_length r h)

/-- What the mask lets through depends on the START record alone (R166). -/
theorem State.records_congr {s t : State} (h : s.stc.start = t.stc.start) (k : EventKind) :
    s.records k = t.records k := by
  simp [State.records, h]

/-- A LINK or QUEUE record is recorded whatever the mask holds (R166). -/
theorem State.records_link {s : State} {k : EventKind} (h : k.cls = .link ∨ k.cls = .queue) :
    s.records k = true := by
  unfold State.records
  split
  · rcases h with h | h <;> simp [EventMask.chooses, h]
  · rfl

/-- While places are free, the chosen records join the tail in their order, each with the round stamp (R165 to R167). -/
theorem State.postAll_queue_of_places {s : State} (rs : List EventRecord)
    (h : s.evq.queue.length + rs.length ≤ 32) :
    (s.postAll rs).evq.queue =
      s.evq.queue ++ (rs.filter fun r => s.records r.kind).map fun r => { r with stamp := s.stamp } := by
  induction rs generalizing s with
  | nil => simp
  | cons r rs ih =>
    rw [List.length_cons] at h
    have hr : ∀ k, (s.post r).records k = s.records k := State.records_congr (by simp)
    have hs : (s.post r).stamp = s.stamp := by simp [State.stamp]
    have hq : (s.post r).evq.queue =
        s.evq.queue ++ if s.records r.kind = true then [{ r with stamp := s.stamp }] else [] := by
      have : s.evq.queue.length < Config.eventPlaces := by unfold Config.eventPlaces; omega
      unfold State.post State.enter
      split <;> simp_all
    rw [State.postAll_cons, ih (by rw [hq]; split <;> simp <;> omega), hq]
    simp only [hr, hs]
    by_cases c : s.records r.kind = true <;> simp [c]

end Sys2Proof.Machine
end

