-- ==== Sys2Proof/Laws/Channels.lean ====
section
/-! SUPPORT. What an event at one channel can do outside its block: requests to the Memory Port, event records, the
completion of the command in the mailbox and, for a talk channel, a RELEASE. -/

namespace Sys2Proof.Machine

@[simp] theorem Out.only_chan {α : Type} (a : α) : (Out.only a).chan = a := rfl
@[simp] theorem Out.only_requests {α : Type} (a : α) : (Out.only a).requests = [] := rfl
@[simp] theorem Out.only_records {α : Type} (a : α) : (Out.only a).records = [] := rfl
@[simp] theorem Out.only_release {α : Type} (a : α) : (Out.only a).release = false := rfl
@[simp] theorem Out.only_done {α : Type} (a : α) : (Out.only a).done = false := rfl
@[simp] theorem Out.mapChan_chan {α β : Type} (o : Out α) (f : α → β) : (o.mapChan f).chan = f o.chan := rfl
@[simp] theorem Out.record_chan {α : Type} (o : Out α) (r : EventRecord) : (o.record r).chan = o.chan := rfl
@[simp] theorem Out.andThen_chan {α β : Type} (o : Out α) (f : α → Out β) : (o.andThen f).chan = (f o.chan).chan := rfl
@[simp] theorem Out.only_andThen {α β : Type} (a : α) (f : α → Out β) : (Out.only a).andThen f = f a := by
  simp [Out.only, Out.andThen]

@[simp] theorem State.commandComplete_stc (s : State) : (s.commandComplete).stc = s.stc := by
  unfold State.commandComplete; split <;> rfl
@[simp] theorem State.commandComplete_rtm (s : State) : (s.commandComplete).rtm = s.rtm := by
  unfold State.commandComplete; split <;> rfl
@[simp] theorem State.commandComplete_lif (s : State) : (s.commandComplete).lif = s.lif := by
  unfold State.commandComplete; split <;> rfl
@[simp] theorem State.commandComplete_smap (s : State) : (s.commandComplete).smap = s.smap := by
  unfold State.commandComplete; split <;> rfl
@[simp] theorem State.commandComplete_cle (s : State) : (s.commandComplete).cle = s.cle := by
  unfold State.commandComplete; split <;> rfl
@[simp] theorem State.commandComplete_talk (s : State) : (s.commandComplete).talk = s.talk := by
  unfold State.commandComplete; split <;> rfl
@[simp] theorem State.commandComplete_listen (s : State) : (s.commandComplete).listen = s.listen := by
  unfold State.commandComplete; split <;> rfl
@[simp] theorem State.commandComplete_mpt (s : State) : (s.commandComplete).mpt = s.mpt := by
  unfold State.commandComplete; split <;> rfl
@[simp] theorem State.commandComplete_evq (s : State) : (s.commandComplete).evq = s.evq := by
  unfold State.commandComplete; split <;> rfl
@[simp] theorem State.commandComplete_boundary (s : State) : (s.commandComplete).boundary = s.boundary := by
  unfold State.commandComplete; split <;> rfl
@[simp] theorem State.commandComplete_rstHeld (s : State) : (s.commandComplete).rstHeld = s.rstHeld := by
  unfold State.commandComplete; split <;> rfl
@[simp] theorem State.commandComplete_pending (s : State) : (s.commandComplete).pending = s.pending := by
  unfold State.commandComplete; split <;> rfl

@[simp] theorem State.carry_stc {α : Type} (s : State) (c : ChannelId) (o : Out α) : (s.carry c o).stc = s.stc := by
  unfold State.carry; split <;> simp
@[simp] theorem State.carry_rtm {α : Type} (s : State) (c : ChannelId) (o : Out α) : (s.carry c o).rtm = s.rtm := by
  unfold State.carry; split <;> simp
@[simp] theorem State.carry_lif {α : Type} (s : State) (c : ChannelId) (o : Out α) : (s.carry c o).lif = s.lif := by
  unfold State.carry; split <;> simp
@[simp] theorem State.carry_smap {α : Type} (s : State) (c : ChannelId) (o : Out α) : (s.carry c o).smap = s.smap := by
  unfold State.carry; split <;> simp
@[simp] theorem State.carry_cle {α : Type} (s : State) (c : ChannelId) (o : Out α) : (s.carry c o).cle = s.cle := by
  unfold State.carry; split <;> simp
@[simp] theorem State.carry_talk {α : Type} (s : State) (c : ChannelId) (o : Out α) : (s.carry c o).talk = s.talk := by
  unfold State.carry; split <;> simp
@[simp] theorem State.carry_listen {α : Type} (s : State) (c : ChannelId) (o : Out α) : (s.carry c o).listen = s.listen := by
  unfold State.carry; split <;> simp
@[simp] theorem State.carry_boundary {α : Type} (s : State) (c : ChannelId) (o : Out α) : (s.carry c o).boundary = s.boundary := by
  unfold State.carry; split <;> simp
@[simp] theorem State.carry_rstHeld {α : Type} (s : State) (c : ChannelId) (o : Out α) : (s.carry c o).rstHeld = s.rstHeld := by
  unfold State.carry; split <;> simp
@[simp] theorem State.carry_pending {α : Type} (s : State) (c : ChannelId) (o : Out α) : (s.carry c o).pending = s.pending := by
  unfold State.carry; split <;> simp

@[simp] theorem State.endRelease_stc (s : State) (k : TalkId) : (s.endRelease k).stc = s.stc := by
  unfold State.endRelease; split <;> rfl
@[simp] theorem State.endRelease_rtm (s : State) (k : TalkId) : (s.endRelease k).rtm = s.rtm := by
  unfold State.endRelease; split <;> rfl
@[simp] theorem State.endRelease_lif (s : State) (k : TalkId) : (s.endRelease k).lif = s.lif := by
  unfold State.endRelease; split <;> rfl
@[simp] theorem State.endRelease_smap (s : State) (k : TalkId) : (s.endRelease k).smap = s.smap := by
  unfold State.endRelease; split <;> rfl
@[simp] theorem State.endRelease_talk (s : State) (k : TalkId) : (s.endRelease k).talk = s.talk := by
  unfold State.endRelease; split <;> rfl
@[simp] theorem State.endRelease_listen (s : State) (k : TalkId) : (s.endRelease k).listen = s.listen := by
  unfold State.endRelease; split <;> rfl
@[simp] theorem State.endRelease_mpt (s : State) (k : TalkId) : (s.endRelease k).mpt = s.mpt := by
  unfold State.endRelease; split <;> rfl
@[simp] theorem State.endRelease_hpt (s : State) (k : TalkId) : (s.endRelease k).hpt = s.hpt := by
  unfold State.endRelease; split <;> rfl
@[simp] theorem State.endRelease_evq (s : State) (k : TalkId) : (s.endRelease k).evq = s.evq := by
  unfold State.endRelease; split <;> rfl
@[simp] theorem State.endRelease_boundary (s : State) (k : TalkId) : (s.endRelease k).boundary = s.boundary := by
  unfold State.endRelease; split <;> rfl
@[simp] theorem State.endRelease_rstHeld (s : State) (k : TalkId) : (s.endRelease k).rstHeld = s.rstHeld := by
  unfold State.endRelease; split <;> rfl
@[simp] theorem State.endRelease_pending (s : State) (k : TalkId) : (s.endRelease k).pending = s.pending := by
  unfold State.endRelease; split <;> rfl

@[simp] theorem State.applyTalk_stc (s : State) (k : TalkId) (f : ChannelContext → Talk → Out Talk) : (s.applyTalk k f).stc = s.stc := by
  unfold State.applyTalk; dsimp only; split <;> simp
@[simp] theorem State.applyTalk_rtm (s : State) (k : TalkId) (f : ChannelContext → Talk → Out Talk) : (s.applyTalk k f).rtm = s.rtm := by
  unfold State.applyTalk; dsimp only; split <;> simp
@[simp] theorem State.applyTalk_lif (s : State) (k : TalkId) (f : ChannelContext → Talk → Out Talk) : (s.applyTalk k f).lif = s.lif := by
  unfold State.applyTalk; dsimp only; split <;> simp
@[simp] theorem State.applyTalk_smap (s : State) (k : TalkId) (f : ChannelContext → Talk → Out Talk) : (s.applyTalk k f).smap = s.smap := by
  unfold State.applyTalk; dsimp only; split <;> simp
@[simp] theorem State.applyTalk_listen (s : State) (k : TalkId) (f : ChannelContext → Talk → Out Talk) : (s.applyTalk k f).listen = s.listen := by
  unfold State.applyTalk; dsimp only; split <;> simp
@[simp] theorem State.applyTalk_boundary (s : State) (k : TalkId) (f : ChannelContext → Talk → Out Talk) : (s.applyTalk k f).boundary = s.boundary := by
  unfold State.applyTalk; dsimp only; split <;> simp
@[simp] theorem State.applyTalk_rstHeld (s : State) (k : TalkId) (f : ChannelContext → Talk → Out Talk) : (s.applyTalk k f).rstHeld = s.rstHeld := by
  unfold State.applyTalk; dsimp only; split <;> simp
@[simp] theorem State.applyTalk_pending (s : State) (k : TalkId) (f : ChannelContext → Talk → Out Talk) : (s.applyTalk k f).pending = s.pending := by
  unfold State.applyTalk; dsimp only; split <;> simp

@[simp] theorem State.applyListen_stc (s : State) (k : ListenId) (f : ChannelContext → Listen → Out Listen) : (s.applyListen k f).stc = s.stc := by
  unfold State.applyListen; simp
@[simp] theorem State.applyListen_rtm (s : State) (k : ListenId) (f : ChannelContext → Listen → Out Listen) : (s.applyListen k f).rtm = s.rtm := by
  unfold State.applyListen; simp
@[simp] theorem State.applyListen_lif (s : State) (k : ListenId) (f : ChannelContext → Listen → Out Listen) : (s.applyListen k f).lif = s.lif := by
  unfold State.applyListen; simp
@[simp] theorem State.applyListen_smap (s : State) (k : ListenId) (f : ChannelContext → Listen → Out Listen) : (s.applyListen k f).smap = s.smap := by
  unfold State.applyListen; simp
@[simp] theorem State.applyListen_cle (s : State) (k : ListenId) (f : ChannelContext → Listen → Out Listen) : (s.applyListen k f).cle = s.cle := by
  unfold State.applyListen; simp
@[simp] theorem State.applyListen_talk (s : State) (k : ListenId) (f : ChannelContext → Listen → Out Listen) : (s.applyListen k f).talk = s.talk := by
  unfold State.applyListen; simp
@[simp] theorem State.applyListen_boundary (s : State) (k : ListenId) (f : ChannelContext → Listen → Out Listen) : (s.applyListen k f).boundary = s.boundary := by
  unfold State.applyListen; simp
@[simp] theorem State.applyListen_rstHeld (s : State) (k : ListenId) (f : ChannelContext → Listen → Out Listen) : (s.applyListen k f).rstHeld = s.rstHeld := by
  unfold State.applyListen; simp
@[simp] theorem State.applyListen_pending (s : State) (k : ListenId) (f : ChannelContext → Listen → Out Listen) : (s.applyListen k f).pending = s.pending := by
  unfold State.applyListen; simp

/-- The talk channels after an event at one of them. -/
@[simp] theorem State.applyTalk_talk (s : State) (k : TalkId) (f : ChannelContext → Talk → Out Talk) :
    (s.applyTalk k f).talk = s.talk.set k (f (s.talkContext k) s.talk[k]).chan := by
  unfold State.applyTalk; dsimp only; split <;> simp

/-- The listen channels after an event at one of them. -/
@[simp] theorem State.applyListen_listen (s : State) (k : ListenId) (f : ChannelContext → Listen → Out Listen) :
    (s.applyListen k f).listen = s.listen.set k (f (s.listenContext k) s.listen[k]).chan := by
  unfold State.applyListen; simp

/-- An event at a talk channel that only changes the channel changes nothing else. -/
theorem State.applyTalk_only {s : State} {k : TalkId} {f : ChannelContext → Talk → Out Talk} {t : Talk}
    (h : f (s.talkContext k) s.talk[k] = Out.only t) :
    s.applyTalk k f = s.setTalk k t := by
  unfold State.applyTalk
  simp only [h]
  simp [Out.only, State.carry, State.enqueue, State.setMpt, State.setTalk]

/-- An event at a listen channel that only changes the channel changes nothing else. -/
theorem State.applyListen_only {s : State} {k : ListenId} {f : ChannelContext → Listen → Out Listen} {l : Listen}
    (h : f (s.listenContext k) s.listen[k] = Out.only l) :
    s.applyListen k f = s.setListen k l := by
  unfold State.applyListen
  simp only [h]
  simp [Out.only, State.carry, State.enqueue, State.setMpt, State.setListen]

/-- A property that an event keeps at each talk channel is kept by the same event at all of them. -/
theorem State.eachTalk_induct {p : State → Prop} {f : ChannelContext → Talk → Out Talk}
    (step : ∀ s k, p s → p (s.applyTalk k f)) {s : State} (h : p s) : p (s.eachTalk f) := by
  unfold State.eachTalk
  generalize List.finRange 8 = ks
  induction ks generalizing s with
  | nil => exact h
  | cons k ks ih => exact ih (step s k h)

/-- A property that an event keeps at each listen channel is kept by the same event at all of them. -/
theorem State.eachListen_induct {p : State → Prop} {f : ChannelContext → Listen → Out Listen}
    (step : ∀ s k, p s → p (s.applyListen k f)) {s : State} (h : p s) : p (s.eachListen f) := by
  unfold State.eachListen
  generalize List.finRange 8 = ks
  induction ks generalizing s with
  | nil => exact h
  | cons k ks ih => exact ih (step s k h)

@[simp] theorem State.eachTalk_stc (s : State) (f : ChannelContext → Talk → Out Talk) :
    (s.eachTalk f).stc = s.stc :=
  State.eachTalk_induct (p := fun t => t.stc = s.stc) (fun t k h => by simp [h]) rfl
@[simp] theorem State.eachTalk_rtm (s : State) (f : ChannelContext → Talk → Out Talk) :
    (s.eachTalk f).rtm = s.rtm :=
  State.eachTalk_induct (p := fun t => t.rtm = s.rtm) (fun t k h => by simp [h]) rfl
@[simp] theorem State.eachTalk_lif (s : State) (f : ChannelContext → Talk → Out Talk) :
    (s.eachTalk f).lif = s.lif :=
  State.eachTalk_induct (p := fun t => t.lif = s.lif) (fun t k h => by simp [h]) rfl
@[simp] theorem State.eachTalk_smap (s : State) (f : ChannelContext → Talk → Out Talk) :
    (s.eachTalk f).smap = s.smap :=
  State.eachTalk_induct (p := fun t => t.smap = s.smap) (fun t k h => by simp [h]) rfl
@[simp] theorem State.eachTalk_listen (s : State) (f : ChannelContext → Talk → Out Talk) :
    (s.eachTalk f).listen = s.listen :=
  State.eachTalk_induct (p := fun t => t.listen = s.listen) (fun t k h => by simp [h]) rfl
@[simp] theorem State.eachTalk_boundary (s : State) (f : ChannelContext → Talk → Out Talk) :
    (s.eachTalk f).boundary = s.boundary :=
  State.eachTalk_induct (p := fun t => t.boundary = s.boundary) (fun t k h => by simp [h]) rfl
@[simp] theorem State.eachTalk_rstHeld (s : State) (f : ChannelContext → Talk → Out Talk) :
    (s.eachTalk f).rstHeld = s.rstHeld :=
  State.eachTalk_induct (p := fun t => t.rstHeld = s.rstHeld) (fun t k h => by simp [h]) rfl
@[simp] theorem State.eachTalk_pending (s : State) (f : ChannelContext → Talk → Out Talk) :
    (s.eachTalk f).pending = s.pending :=
  State.eachTalk_induct (p := fun t => t.pending = s.pending) (fun t k h => by simp [h]) rfl
@[simp] theorem State.eachListen_stc (s : State) (f : ChannelContext → Listen → Out Listen) :
    (s.eachListen f).stc = s.stc :=
  State.eachListen_induct (p := fun t => t.stc = s.stc) (fun t k h => by simp [h]) rfl
@[simp] theorem State.eachListen_rtm (s : State) (f : ChannelContext → Listen → Out Listen) :
    (s.eachListen f).rtm = s.rtm :=
  State.eachListen_induct (p := fun t => t.rtm = s.rtm) (fun t k h => by simp [h]) rfl
@[simp] theorem State.eachListen_lif (s : State) (f : ChannelContext → Listen → Out Listen) :
    (s.eachListen f).lif = s.lif :=
  State.eachListen_induct (p := fun t => t.lif = s.lif) (fun t k h => by simp [h]) rfl
@[simp] theorem State.eachListen_smap (s : State) (f : ChannelContext → Listen → Out Listen) :
    (s.eachListen f).smap = s.smap :=
  State.eachListen_induct (p := fun t => t.smap = s.smap) (fun t k h => by simp [h]) rfl
@[simp] theorem State.eachListen_cle (s : State) (f : ChannelContext → Listen → Out Listen) :
    (s.eachListen f).cle = s.cle :=
  State.eachListen_induct (p := fun t => t.cle = s.cle) (fun t k h => by simp [h]) rfl
@[simp] theorem State.eachListen_talk (s : State) (f : ChannelContext → Listen → Out Listen) :
    (s.eachListen f).talk = s.talk :=
  State.eachListen_induct (p := fun t => t.talk = s.talk) (fun t k h => by simp [h]) rfl
@[simp] theorem State.eachListen_boundary (s : State) (f : ChannelContext → Listen → Out Listen) :
    (s.eachListen f).boundary = s.boundary :=
  State.eachListen_induct (p := fun t => t.boundary = s.boundary) (fun t k h => by simp [h]) rfl
@[simp] theorem State.eachListen_rstHeld (s : State) (f : ChannelContext → Listen → Out Listen) :
    (s.eachListen f).rstHeld = s.rstHeld :=
  State.eachListen_induct (p := fun t => t.rstHeld = s.rstHeld) (fun t k h => by simp [h]) rfl
@[simp] theorem State.eachListen_pending (s : State) (f : ChannelContext → Listen → Out Listen) :
    (s.eachListen f).pending = s.pending :=
  State.eachListen_induct (p := fun t => t.pending = s.pending) (fun t k h => by simp [h]) rfl

/-- The other talk channels are untouched by an event at one. -/
theorem State.applyTalk_other {s : State} {k j : TalkId} (f : ChannelContext → Talk → Out Talk) (h : k ≠ j) :
    (s.applyTalk k f).talk[j] = s.talk[j] := by
  have : (k : Nat) ≠ j := fun e => h (Fin.ext e)
  simp [this]

/-- The other listen channels are untouched by an event at one. -/
theorem State.applyListen_other {s : State} {k j : ListenId} (f : ChannelContext → Listen → Out Listen)
    (h : k ≠ j) : (s.applyListen k f).listen[j] = s.listen[j] := by
  have : (k : Nat) ≠ j := fun e => h (Fin.ext e)
  simp [this]

/-! ## The other blocks after an event at one channel -/

theorem splitChannel_talkChannel (k : TalkId) : splitChannel (talkChannel k) = .inl k := by
  simp [splitChannel, talkChannel]

theorem splitChannel_listenChannel (k : ListenId) : splitChannel (listenChannel k) = .inr k := by
  simp [splitChannel, listenChannel]

@[simp] theorem State.enqueue_nil (s : State) (c : ChannelId) : s.enqueue c [] = s := by
  simp [State.enqueue, State.setMpt]

/-- The requests made join the tail of the channel's waiting list, and nothing else of MPT changes (R140). -/
theorem State.carry_mpt {α : Type} (s : State) (c : ChannelId) (o : Out α) :
    (s.carry c o).mpt = { s.mpt with waiting := s.mpt.waiting.set c (s.mpt.waiting[c] ++ o.requests) } := by
  unfold State.carry; split <;> simp [State.enqueue, State.setMpt]

theorem State.applyTalk_mpt (s : State) (k : TalkId) (f : ChannelContext → Talk → Out Talk) :
    (s.applyTalk k f).mpt = { s.mpt with
      waiting := s.mpt.waiting.set (talkChannel k)
        (s.mpt.waiting[talkChannel k] ++ (f (s.talkContext k) s.talk[k]).requests) } := by
  unfold State.applyTalk; dsimp only; split <;> simp [State.carry_mpt]

theorem State.applyListen_mpt (s : State) (k : ListenId) (f : ChannelContext → Listen → Out Listen) :
    (s.applyListen k f).mpt = { s.mpt with
      waiting := s.mpt.waiting.set (listenChannel k)
        (s.mpt.waiting[listenChannel k] ++ (f (s.listenContext k) s.listen[k]).requests) } := by
  unfold State.applyListen; simp [State.carry_mpt]

/-- Without a request for a RELEASE the Claim Engine is not reached. -/
theorem State.applyTalk_cle {s : State} {k : TalkId} {f : ChannelContext → Talk → Out Talk}
    (h : (f (s.talkContext k) s.talk[k]).release = false) : (s.applyTalk k f).cle = s.cle := by
  unfold State.applyTalk; simp only [h]; simp

/-- The mailbox changes only by the completion of the command in progress. -/
theorem State.applyTalk_mailbox (s : State) (k : TalkId) (f : ChannelContext → Talk → Out Talk) :
    (s.applyTalk k f).hpt.mailbox =
      if (f (s.talkContext k) s.talk[k]).done = true then s.commandComplete.hpt.mailbox else s.hpt.mailbox := by
  unfold State.applyTalk State.carry
  dsimp only
  split <;> split <;> simp [State.enqueue, State.commandComplete] <;> split <;> simp [State.answer, State.setMailbox]

theorem State.applyListen_mailbox (s : State) (k : ListenId) (f : ChannelContext → Listen → Out Listen) :
    (s.applyListen k f).hpt.mailbox =
      if (f (s.listenContext k) s.listen[k]).done = true then s.commandComplete.hpt.mailbox
      else s.hpt.mailbox := by
  unfold State.applyListen State.carry
  dsimp only
  split
  · simp [State.enqueue, State.commandComplete]
    split <;> simp [State.answer, State.setMailbox]
  · simp [State.enqueue]

/-! ## The same event at every channel -/

@[simp] theorem State.applyTalk_talkContext (s : State) (j k : TalkId) (f : ChannelContext → Talk → Out Talk) :
    (s.applyTalk j f).talkContext k = s.talkContext k := by
  simp [State.talkContext, State.stamp]

theorem State.foldl_applyTalk_get (f : ChannelContext → Talk → Out Talk) (k : TalkId) (ids : List TalkId) (h : ids.Nodup)
    (s : State) : (ids.foldl (fun s j => s.applyTalk j f) s).talk[k] =
      if k ∈ ids then (f (s.talkContext k) s.talk[k]).chan else s.talk[k] := by
  induction ids generalizing s with
  | nil => simp
  | cons j ids ih =>
    obtain ⟨hj, hn⟩ := List.nodup_cons.mp h
    rw [List.foldl_cons, ih hn]
    by_cases hk : j = k
    · subst hk; simp [hj]
    · have hne : (j : Nat) ≠ k := fun e => hk (Fin.ext e)
      simp [hne, Ne.symm hk]

/-- Each channel sees the event as it would alone. -/
theorem State.eachTalk_get (s : State) (f : ChannelContext → Talk → Out Talk) (k : TalkId) :
    (s.eachTalk f).talk[k] = (f (s.talkContext k) s.talk[k]).chan := by
  rw [State.eachTalk, State.foldl_applyTalk_get f k _ (List.nodup_finRange 8)]; simp

theorem State.foldl_applyTalk_mailbox (f : ChannelContext → Talk → Out Talk) (ids : List TalkId) (h : ids.Nodup)
    (s : State) : (ids.foldl (fun s j => s.applyTalk j f) s).hpt.mailbox =
      if ∃ k ∈ ids, (f (s.talkContext k) s.talk[k]).done = true then s.commandComplete.hpt.mailbox
      else s.hpt.mailbox := by
  induction ids generalizing s with
  | nil => simp
  | cons j ids ih =>
    obtain ⟨hj, hn⟩ := List.nodup_cons.mp h
    have same : ∀ k ∈ ids, (s.applyTalk j f).talk[k] = s.talk[k] := fun k hk =>
      State.applyTalk_other f fun e => hj (e ▸ hk)
    have any : (∃ k ∈ ids, (f ((s.applyTalk j f).talkContext k) (s.applyTalk j f).talk[k]).done = true) ↔
        ∃ k ∈ ids, (f (s.talkContext k) s.talk[k]).done = true := by
      constructor <;> rintro ⟨k, hk, hd⟩ <;> refine ⟨k, hk, ?_⟩
      · rwa [same k hk, State.applyTalk_talkContext] at hd
      · rwa [same k hk, State.applyTalk_talkContext]
    rw [List.foldl_cons, ih hn, if_congr any rfl rfl]
    have hm := State.applyTalk_mailbox s j f
    have again : ∀ a b : State, a.hpt.mailbox = b.hpt.mailbox →
        a.commandComplete.hpt.mailbox = b.commandComplete.hpt.mailbox := by
      intro a b e
      unfold State.commandComplete
      rw [e]; split <;> simp [State.answer, State.setMailbox, e]
    have twice : s.commandComplete.commandComplete.hpt.mailbox = s.commandComplete.hpt.mailbox := by
      unfold State.commandComplete
      cases h : s.hpt.mailbox <;> simp [State.answer, State.setMailbox, h]
    simp only [List.mem_cons, exists_eq_or_imp]
    by_cases hd : (f (s.talkContext j) s.talk[j]).done = true
    · rw [if_pos hd] at hm
      rw [if_pos (Or.inl hd), again _ _ hm, hm, twice, ite_self]
    · rw [if_neg hd] at hm
      rw [again _ _ hm, hm]
      exact if_congr (by rw [or_iff_right hd]) rfl rfl

/-- The command in progress is complete if any channel reports it so. -/
theorem State.eachTalk_mailbox (s : State) (f : ChannelContext → Talk → Out Talk) :
    (s.eachTalk f).hpt.mailbox =
      if ∃ k : TalkId, (f (s.talkContext k) s.talk[k]).done = true then s.commandComplete.hpt.mailbox
      else s.hpt.mailbox := by
  rw [State.eachTalk, State.foldl_applyTalk_mailbox f _ (List.nodup_finRange 8)]
  simp

@[simp] theorem State.applyListen_listenContext (s : State) (j k : ListenId) (f : ChannelContext → Listen → Out Listen) :
    (s.applyListen j f).listenContext k = s.listenContext k := by
  simp [State.listenContext, State.stamp]

theorem State.foldl_applyListen_get (f : ChannelContext → Listen → Out Listen) (k : ListenId) (ids : List ListenId) (h : ids.Nodup)
    (s : State) : (ids.foldl (fun s j => s.applyListen j f) s).listen[k] =
      if k ∈ ids then (f (s.listenContext k) s.listen[k]).chan else s.listen[k] := by
  induction ids generalizing s with
  | nil => simp
  | cons j ids ih =>
    obtain ⟨hj, hn⟩ := List.nodup_cons.mp h
    rw [List.foldl_cons, ih hn]
    by_cases hk : j = k
    · subst hk; simp [hj]
    · have hne : (j : Nat) ≠ k := fun e => hk (Fin.ext e)
      simp [hne, Ne.symm hk]

/-- Each channel sees the event as it would alone. -/
theorem State.eachListen_get (s : State) (f : ChannelContext → Listen → Out Listen) (k : ListenId) :
    (s.eachListen f).listen[k] = (f (s.listenContext k) s.listen[k]).chan := by
  rw [State.eachListen, State.foldl_applyListen_get f k _ (List.nodup_finRange 8)]; simp

/-- Two listen channels share no place in the numbering of all channels (R165). -/
theorem listenChannel_val_inj {j k : ListenId} (h : (listenChannel j).val = (listenChannel k).val) : j = k := by
  unfold listenChannel at h
  exact Fin.ext (by simpa using h)
/-- A channel's waiting list after the same event at each of some listen channels (R140). -/
theorem State.foldl_applyListen_waiting (f : ChannelContext → Listen → Out Listen) (k : ListenId)
    (ids : List ListenId) (h : ids.Nodup) (s : State) :
    (ids.foldl (fun s j => s.applyListen j f) s).mpt.waiting[listenChannel k] =
      s.mpt.waiting[listenChannel k] ++ if k ∈ ids then (f (s.listenContext k) s.listen[k]).requests else [] := by
  induction ids generalizing s with
  | nil => simp
  | cons j ids ih =>
    rw [List.nodup_cons] at h
    rw [List.foldl_cons, ih h.2, State.applyListen_listenContext]
    by_cases e : k = j
    · subst e
      simp [h.1, State.applyListen_mpt]
    · have hn : (listenChannel j).val ≠ (listenChannel k).val := fun hv => e (listenChannel_val_inj hv).symm
      rw [State.applyListen_other f (Ne.symm e)]
      simp [State.applyListen_mpt, e, Vector.getElem_set_ne, hn]

/-- Every listen channel's waiting list after the same event at each (R140). -/
theorem State.eachListen_waiting (s : State) (f : ChannelContext → Listen → Out Listen) (k : ListenId) :
    (s.eachListen f).mpt.waiting[listenChannel k] =
      s.mpt.waiting[listenChannel k] ++ (f (s.listenContext k) s.listen[k]).requests := by
  rw [State.eachListen, State.foldl_applyListen_waiting f k _ (List.nodup_finRange 8)]; simp

theorem State.foldl_applyListen_mailbox (f : ChannelContext → Listen → Out Listen) (ids : List ListenId) (h : ids.Nodup)
    (s : State) : (ids.foldl (fun s j => s.applyListen j f) s).hpt.mailbox =
      if ∃ k ∈ ids, (f (s.listenContext k) s.listen[k]).done = true then s.commandComplete.hpt.mailbox
      else s.hpt.mailbox := by
  induction ids generalizing s with
  | nil => simp
  | cons j ids ih =>
    obtain ⟨hj, hn⟩ := List.nodup_cons.mp h
    have same : ∀ k ∈ ids, (s.applyListen j f).listen[k] = s.listen[k] := fun k hk =>
      State.applyListen_other f fun e => hj (e ▸ hk)
    have any : (∃ k ∈ ids, (f ((s.applyListen j f).listenContext k) (s.applyListen j f).listen[k]).done = true) ↔
        ∃ k ∈ ids, (f (s.listenContext k) s.listen[k]).done = true := by
      constructor <;> rintro ⟨k, hk, hd⟩ <;> refine ⟨k, hk, ?_⟩
      · rwa [same k hk, State.applyListen_listenContext] at hd
      · rwa [same k hk, State.applyListen_listenContext]
    rw [List.foldl_cons, ih hn, if_congr any rfl rfl]
    have hm := State.applyListen_mailbox s j f
    have again : ∀ a b : State, a.hpt.mailbox = b.hpt.mailbox →
        a.commandComplete.hpt.mailbox = b.commandComplete.hpt.mailbox := by
      intro a b e
      unfold State.commandComplete
      rw [e]; split <;> simp [State.answer, State.setMailbox, e]
    have twice : s.commandComplete.commandComplete.hpt.mailbox = s.commandComplete.hpt.mailbox := by
      unfold State.commandComplete
      cases h : s.hpt.mailbox <;> simp [State.answer, State.setMailbox, h]
    simp only [List.mem_cons, exists_eq_or_imp]
    by_cases hd : (f (s.listenContext j) s.listen[j]).done = true
    · rw [if_pos hd] at hm
      rw [if_pos (Or.inl hd), again _ _ hm, hm, twice, ite_self]
    · rw [if_neg hd] at hm
      rw [again _ _ hm, hm]
      exact if_congr (by rw [or_iff_right hd]) rfl rfl

/-- The command in progress is complete if any channel reports it so. -/
theorem State.eachListen_mailbox (s : State) (f : ChannelContext → Listen → Out Listen) :
    (s.eachListen f).hpt.mailbox =
      if ∃ k : ListenId, (f (s.listenContext k) s.listen[k]).done = true then s.commandComplete.hpt.mailbox
      else s.hpt.mailbox := by
  rw [State.eachListen, State.foldl_applyListen_mailbox f _ (List.nodup_finRange 8)]
  simp

end Sys2Proof.Machine
end

