-- ==== Sys2Proof/Laws/Boundary.lean ====
section
/-! SUPPORT. When the work of a boundary and a report that waits do nothing, the small lemmas of what a taken
descriptor keeps and of when a binding is taken, and the records of the fault notice (R8, R31, R62, R81, R99, R110). -/

namespace Sys2Proof.Machine

/-! ## The copy a taken descriptor keeps (R99) -/

@[simp] theorem eventOf_none : eventOf none = false := rfl
@[simp] theorem eventOf_held (d : Descriptor) : eventOf (some (.held d)) = d.event := rfl
@[simp] theorem eventOf_bad (d : Descriptor) : eventOf (some (.bad d)) = d.event := rfl
@[simp] theorem eventOf_readError (d : Descriptor) : eventOf (some (.readError d)) = d.event := rfl
@[simp] theorem eventOf_fetching : eventOf (some .fetching) = false := rfl
@[simp] theorem eventOf_fetchError : eventOf (some .fetchError) = false := rfl

/-- R110: the channel takes a binding it is offered. -/
theorem Talk.takesBinding_iff (t : Talk) :
    t.takesBinding = true ↔ t.closeTaken = false ∧ t.bound = none ∧ (t.state = .armed ∨ t.state = .halted) := by
  simp [Talk.takesBinding, and_assoc]

/-! ## A boundary with nothing left to do -/

theorem State.slotMapWork_idle {s : State} (h : s.boundary.slotMap = false) : s.slotMapWork = s := by
  simp [State.slotMapWork, h]

theorem State.claimWork_idle {s : State} (h : s.boundary.claims = false) : s.claimWork = s := by
  simp [State.claimWork, h]

theorem State.talkWork_idle {s : State} (h : s.boundary.talk = false) : s.talkWork = s := by
  simp [State.talkWork, h]

theorem State.listenWork_idle {s : State} (h : s.boundary.listen = false) : s.listenWork = s := by
  simp [State.listenWork, h]

theorem State.stationWork_idle {s : State} (h : s.boundary.station = false) : s.stationWork = s := by
  simp [State.stationWork, h]

/-- With no share of SMAP, CLE, TKE or LNE waiting, finishing them changes nothing. -/
theorem State.finishOthers_idle {s : State} (hm : s.boundary.slotMap = false) (hc : s.boundary.claims = false)
    (ht : s.boundary.talk = false) (hl : s.boundary.listen = false) : s.finishOthers = s := by
  rw [State.finishOthers, State.slotMapWork_idle hm, State.claimWork_idle hc, State.talkWork_idle ht,
    State.listenWork_idle hl]

/-! ## The duplicate-id report (R31) -/

theorem State.takeReport_none {s : State} (h : s.stc.report = none) : s.takeReport = s := by
  simp [State.takeReport, h]

/-- In a link state, and in READY after a leave that has just ended, a report that waits is taken. -/
theorem State.takeReport_some {s : State} {r : DuplicateReport} (h : s.stc.report = some r)
    (ht : s.stc.state.takesReport = true) :
    s.takeReport = s.enterFault .duplicateId (some r.slot) (some r.tag) := by
  simp [State.takeReport, h, ht]

/-- Between boundaries, with no report waiting, finishing the boundary changes nothing. -/
theorem State.finishBoundary_idle {s : State} (hb : s.boundary = .nothing) (hr : s.stc.report = none) :
    s.finishBoundary = s := by
  have h : s.finishOthers = s := State.finishOthers_idle (by rw [hb]; rfl) (by rw [hb]; rfl) (by rw [hb]; rfl)
    (by rw [hb]; rfl)
  rw [State.finishBoundary, h, State.takeReport_none hr, State.stationWork_idle (by rw [hb]; rfl)]

/-- STC's own work at a boundary, outside a leave: its round, and then the report that waits with it. -/
theorem State.stationWork_staying {s : State} (h : s.boundary.station = true) (hp : s.stc.leavePending = false)
    (hl : s.stc.state ≠ .leaving) : s.stationWork = s.stationRound.takeReport := by
  simp [State.stationWork, State.beforeStation, h, hp, hl]

@[simp] theorem State.setCle_records (s : State) (c : Cle) (k : EventKind) : (s.setCle c).records k = s.records k := rfl
@[simp] theorem State.setCle_stamp (s : State) (c : Cle) : (s.setCle c).stamp = s.stamp := rfl

/-- All the fault notice can do to the event queue while it has places: one WITHDRAWN, cause FAULT, for each request in
queue order, or none where the mask does not choose them (R81, R83, R166). -/
theorem State.withdrawAll_queue_of_places {s : State} (h : s.evq.queue.length + s.cle.queue.length ≤ 32) :
    s.withdrawAll.evq.queue = s.evq.queue ++
      if s.records .withdrawn = true then
        s.cle.queue.map fun r => { r.withdrawn .fault with stamp := s.stamp }
      else [] := by
  have hk : ∀ r : ClaimRequest, (r.withdrawn .fault).kind = .withdrawn := fun _ => rfl
  unfold State.withdrawAll
  rw [State.postAll_queue_of_places _ (by simpa using h), State.setCle_evq]
  by_cases c : s.records .withdrawn = true
  · simp [List.filter_map, Function.comp_def, hk, c]
  · simp [List.filter_map, Function.comp_def, hk, c]

end Sys2Proof.Machine
end

