-- ==== Sys2Proof/Laws/Link.lean ====
section
/-! SUPPORT. What LIF's reading of bits can do (R1 to R3): when an element opens, how many bits of a transmission are
read before one, and that reading an element, or a marker that is none, changes LIF and E alone. -/

namespace Sys2Proof.Machine

/-! ## When an element opens (R3) -/

/-- The list of openings holds exactly the times of R3. -/
theorem State.mem_openings (s : State) (t : Nat) : t ∈ s.openings ↔ s.opensAt t := by
  unfold State.openings State.opensAt Config.windowOpens Config.slotsOpen Config.slotBits
  split <;> rename_i h <;> simp only [h, true_and, List.mem_cons, List.mem_map, List.mem_range,
    List.not_mem_nil]
  · exact or_congr_right ⟨fun ⟨i, hi, e⟩ => ⟨i, hi, e.symm⟩, fun ⟨i, hi, e⟩ => ⟨i, hi, e.symm⟩⟩
  · simp

/-- An element opens while bits that began at E = `began` are on the line (R2). -/
theorem State.opensWithin_iff (s : State) (began n : Nat) :
    s.opensWithin began n = true ↔ ∃ t, s.opensAt t ∧ began ≤ t ∧ t < began + n := by
  simp [State.opensWithin, State.mem_openings]

/-- Two elements open at least 80 bit times apart (R3). -/
theorem State.opensAt_apart {s : State} {t u : Nat} (ht : s.opensAt t) (hu : s.opensAt u) :
    t = u ∨ t + 80 ≤ u ∨ u + 80 ≤ t := by
  rcases ht with ⟨-, rfl | ⟨i, -, rfl⟩⟩ <;> rcases hu with ⟨-, rfl | ⟨j, -, rfl⟩⟩ <;> omega

/-- Off the first marker nothing opens. -/
theorem State.not_opensAt {s : State} (h : s.rtm.lastMarker = none) (t : Nat) : ¬ s.opensAt t := by
  simp [State.opensAt, h]

/-! ## The bits read (R2) -/

/-- With no element to open among them, all the bits are read. -/
theorem State.bitsRead_all {s : State} {began : Nat} {bits : List Bool}
    (h : ∀ t, s.opensAt t → t < began ∨ began + bits.length ≤ t ∨ t < s.now) : s.bitsRead began bits = bits := by
  unfold State.bitsRead
  rw [List.find?_eq_none.mpr]
  intro t ht
  have := h t ((s.mem_openings t).mp ht)
  simp only [Bool.and_eq_true, decide_eq_true_eq]
  omega

/-- Only the bits before an element that is still to open are read. -/
theorem State.bitsRead_before {s : State} {began t : Nat} {bits : List Bool} (ho : s.opensAt t) (hb : began ≤ t)
    (ht : t < began + bits.length) (hn : s.now ≤ t) (hs : bits.length ≤ 80) :
    s.bitsRead began bits = bits.take (t - began) := by
  unfold State.bitsRead
  have hm : ∃ u ∈ s.openings, (decide (began ≤ u) && decide (u < began + bits.length) && decide (s.now ≤ u)) = true :=
    ⟨t, (s.mem_openings t).mpr ho, by simp [hb, ht, hn]⟩
  obtain ⟨u, hu⟩ := Option.isSome_iff_exists.mp (List.find?_isSome.mpr hm)
  have h2 := List.find?_some hu
  have h3 := (s.mem_openings u).mp (List.mem_of_find?_eq_some hu)
  simp only [Bool.and_eq_true, decide_eq_true_eq] at h2
  obtain rfl : t = u := by have := State.opensAt_apart ho h3; omega
  rw [hu]

/-- Bits without a dominant one leave the line as idle as it was (R2). -/
@[simp] theorem State.dominantAfter_nil (s : State) (start : Nat) : s.dominantAfter start [] = s.lif.lastDominant := rfl

/-- The line is no more idle for having read bits (R2). -/
theorem State.dominantAfter_ge (s : State) (start : Nat) (bits : List Bool) :
    s.lif.lastDominant ≤ s.dominantAfter start bits := by
  unfold State.dominantAfter
  split <;> omega

/-! ## What reading changes -/

section
variable (s : State) (start : Nat) (bits : List Bool)

@[simp] theorem State.elementRead_lif : (s.elementRead start bits).lif = { s.lif with
    activity := .idle, lastDominant := s.dominantAfter start bits, watchesFrom := start + bits.length } := rfl
@[simp] theorem State.elementRead_stc : (s.elementRead start bits).stc = s.stc := rfl
@[simp] theorem State.elementRead_rtm : (s.elementRead start bits).rtm = s.rtm := rfl
@[simp] theorem State.elementRead_smap : (s.elementRead start bits).smap = s.smap := rfl
@[simp] theorem State.elementRead_cle : (s.elementRead start bits).cle = s.cle := rfl
@[simp] theorem State.elementRead_talk : (s.elementRead start bits).talk = s.talk := rfl
@[simp] theorem State.elementRead_listen : (s.elementRead start bits).listen = s.listen := rfl
@[simp] theorem State.elementRead_mpt : (s.elementRead start bits).mpt = s.mpt := rfl
@[simp] theorem State.elementRead_hpt : (s.elementRead start bits).hpt = s.hpt := rfl
@[simp] theorem State.elementRead_evq : (s.elementRead start bits).evq = s.evq := rfl
@[simp] theorem State.elementRead_boundary : (s.elementRead start bits).boundary = s.boundary := rfl

end

/-- Before 2P, reading bits of no marker moves E and the last dominant bit and nothing else (R2, R10). -/
theorem State.lineRead_eq {s : State} {began : Nat} {bits : List Bool}
    (h : max s.now (began + (s.bitsRead began bits).length) ≤ 2 * s.period) :
    s.lineRead began bits = { s with
      rtm := { s.rtm with elapsed := some (max s.now (began + (s.bitsRead began bits).length)) }
      lif := { s.lif with lastDominant := s.dominantAfter began (s.bitsRead began bits) } } := by
  unfold State.lineRead State.timed
  dsimp only
  rw [if_neg (Nat.not_lt.mpr h)]
  rfl

end Sys2Proof.Machine
end

