-- ==== Sys2Proof/Laws/Pump.lean ====
section
/-! SUPPORT. What the making of fetches and data requests can do to a channel (R93, R108, R131): it makes no record,
asks for no RELEASE and completes no command, and of the channel only the request list, what is taken, the read or
write point and, of a listen channel, how its deposit is split can change. -/

namespace Sys2Proof.Machine

/-- What a talk channel's next request leaves of the channel and of the outcome. -/
structure Talk.Pumped (t : Talk) (o : Out Talk) : Prop where
  records : o.records = []
  release : o.release = false
  done : o.done = false
  chan : o.chan = { t with
    requests := o.chan.requests, readPoint := o.chan.readPoint
    ring := { t.ring with current := o.chan.ring.current, ahead := o.chan.ring.ahead } }
  grows : ∃ later, o.chan.requests = t.requests ++ later ∧ later.length = o.requests.length ∧
    ∀ e ∈ later, (e.purpose = .descFetch ∧ e.stale = false) ∨ (e.purpose = .dataRead ∧ e.stale = t.readsStale)
  current : t.ring.current.isSome = true → o.chan.ring.current = t.ring.current
  ahead : t.ring.ahead.isSome = true → o.chan.ring.ahead = t.ring.ahead

theorem Talk.Pumped.refl (t : Talk) : t.Pumped (Out.only t) :=
  { records := rfl, release := rfl, done := rfl, chan := rfl, grows := ⟨[], by simp⟩,
    current := fun _ => rfl, ahead := fun _ => rfl }

theorem Talk.Pumped.andThen {t : Talk} {o : Out Talk} {f : Talk → Out Talk} (h : t.Pumped o)
    (g : o.chan.Pumped (f o.chan)) : t.Pumped (o.andThen f) := by
  obtain ⟨r1, l1, d1, c1, ⟨e1, g1, n1, a1⟩, u1, w1⟩ := h
  obtain ⟨r2, l2, d2, c2, ⟨e2, g2, n2, a2⟩, u2, w2⟩ := g
  refine ⟨by simp [Out.andThen, r1, r2], by simp [Out.andThen, l1, l2], by simp [Out.andThen, d1, d2], ?_,
    ⟨e1 ++ e2, ?_, ?_, ?_⟩, ?_, ?_⟩
  · simp only [Out.andThen_chan]
    rw [c2]
    rw [c1]
  · simp [g2, g1]
  · simp [Out.andThen, n1, n2]
  · intro e he
    rcases List.mem_append.mp he with he | he
    · exact a1 e he
    · have hs : o.chan.readsStale = t.readsStale := by rw [c1]; rfl
      rw [← hs]
      exact a2 e he
  · intro hc
    rw [Out.andThen_chan, u2 (by rw [u1 hc]; exact hc), u1 hc]
  · intro hc
    rw [Out.andThen_chan, w2 (by rw [w1 hc]; exact hc), w1 hc]

/-- A current with a value is not fetched again, but for one in FETCHING, which stays in FETCHING. -/
theorem ChannelCore.wantsCurrent_cases {c : ChannelCore} (h : c.wantsCurrent = true) :
    c.ring.current = none ∨ c.ring.current = some .fetching := by
  simp only [wantsCurrent, Bool.or_eq_true, Bool.and_eq_true, Option.isNone_iff_eq_none, beq_iff_eq] at h
  tauto

theorem Talk.nextAhead_pumped {ctx : ChannelContext} {t : Talk} {o : Out Talk} (h : t.nextAhead ctx = some o) :
    t.Pumped o := by
  unfold Talk.nextAhead at h
  split at h
  case isFalse => cases h
  case isTrue hw =>
    simp only [Bool.and_eq_true, ChannelCore.wantsAhead, Option.isNone_iff_eq_none] at hw
    cases h
    refine ⟨rfl, rfl, rfl, rfl, ⟨[_], rfl, rfl, ?_⟩, fun _ => rfl, ?_⟩
    · simp
    · simp [hw.1.1.1.2]

theorem Talk.nextRequest_pumped {ctx : ChannelContext} {t : Talk} {o : Out Talk}
    (h : t.nextRequest ctx = some o) : t.Pumped o := by
  unfold Talk.nextRequest at h
  split at h
  · cases h
  · split at h
    case isTrue hw =>
      cases h
      refine ⟨rfl, rfl, rfl, rfl, ⟨[_], rfl, rfl, by simp⟩, ?_, fun _ => rfl⟩
      intro hs
      rcases ChannelCore.wantsCurrent_cases hw with hc | hc
      · simp [hc] at hs
      · exact hc.symm
    · split at h
      · dsimp only at h
        split at h
        · cases h
          exact ⟨rfl, rfl, rfl, rfl, ⟨[_], rfl, rfl, by simp⟩, fun _ => rfl, fun _ => rfl⟩
        · exact Talk.nextAhead_pumped h
      · exact Talk.nextAhead_pumped h

theorem Talk.pumpFor_pumped (ctx : ChannelContext) (n : Nat) (t : Talk) : t.Pumped (t.pumpFor ctx n) := by
  induction n generalizing t with
  | zero => exact .refl t
  | succ n ih =>
    unfold Talk.pumpFor
    split
    · exact (Talk.nextRequest_pumped ‹_›).andThen (ih _)
    · exact .refl t

theorem Talk.pump_pumped (ctx : ChannelContext) (t : Talk) : t.Pumped (t.pump ctx) :=
  Talk.pumpFor_pumped ctx _ t

/-- A channel that does not walk its ring makes no request (R93, R118). -/
theorem Talk.pump_of_not_walks {ctx : ChannelContext} {t : Talk} (h : t.walks = false) : t.pump ctx = Out.only t := by
  simp [Talk.pump, Config.requestLimit, Talk.pumpFor, Talk.nextRequest, h]

theorem Talk.walks_of_closed {t : Talk} (h : t.state = .closed) : t.walks = false := by
  simp [Talk.walks, h]

theorem Talk.walks_of_halted {t : Talk} (h : t.state = .halted) : t.walks = false := by
  simp [Talk.walks, h]

section
variable (ctx : ChannelContext) (t : Talk)

@[simp] theorem Talk.pump_records : (t.pump ctx).records = [] := (t.pump_pumped ctx).records
@[simp] theorem Talk.pump_release : (t.pump ctx).release = false := (t.pump_pumped ctx).release
@[simp] theorem Talk.pump_done : (t.pump ctx).done = false := (t.pump_pumped ctx).done
@[simp] theorem Talk.pump_state : (t.pump ctx).chan.state = t.state := by rw [(t.pump_pumped ctx).chan]
@[simp] theorem Talk.pump_tag : (t.pump ctx).chan.tag = t.tag := by rw [(t.pump_pumped ctx).chan]
@[simp] theorem Talk.pump_bound : (t.pump ctx).chan.bound = t.bound := by rw [(t.pump_pumped ctx).chan]
@[simp] theorem Talk.pump_staging : (t.pump ctx).chan.staging = t.staging := by rw [(t.pump_pumped ctx).chan]
@[simp] theorem Talk.pump_onLine : (t.pump ctx).chan.onLine = t.onLine := by rw [(t.pump_pumped ctx).chan]
@[simp] theorem Talk.pump_sequence : (t.pump ctx).chan.sequence = t.sequence := by rw [(t.pump_pumped ctx).chan]
@[simp] theorem Talk.pump_endWait : (t.pump ctx).chan.endWait = t.endWait := by rw [(t.pump_pumped ctx).chan]
@[simp] theorem Talk.pump_closeTaken : (t.pump ctx).chan.closeTaken = t.closeTaken := by
  rw [(t.pump_pumped ctx).chan]
@[simp] theorem Talk.pump_haltCause : (t.pump ctx).chan.haltCause = t.haltCause := by rw [(t.pump_pumped ctx).chan]
@[simp] theorem Talk.pump_wordsSent : (t.pump ctx).chan.wordsSent = t.wordsSent := by rw [(t.pump_pumped ctx).chan]
@[simp] theorem Talk.pump_lateCount : (t.pump ctx).chan.lateCount = t.lateCount := by rw [(t.pump_pumped ctx).chan]
@[simp] theorem Talk.pump_heldHalts : (t.pump ctx).chan.heldHalts = t.heldHalts := by rw [(t.pump_pumped ctx).chan]
@[simp] theorem Talk.pump_resumeWaits : (t.pump ctx).chan.resumeWaits = t.resumeWaits := by
  rw [(t.pump_pumped ctx).chan]
@[simp] theorem Talk.pump_base : (t.pump ctx).chan.ring.base = t.ring.base := by rw [(t.pump_pumped ctx).chan]
@[simp] theorem Talk.pump_ci : (t.pump ctx).chan.ring.ci = t.ring.ci := by rw [(t.pump_pumped ctx).chan]
@[simp] theorem Talk.pump_fi : (t.pump ctx).chan.ring.fi = t.ring.fi := by rw [(t.pump_pumped ctx).chan]
@[simp] theorem Talk.pump_position : (t.pump ctx).chan.ring.position = t.ring.position := by
  rw [(t.pump_pumped ctx).chan]

end

/-- What a listen channel's next request leaves of the channel and of the outcome. -/
structure Listen.Pumped (l : Listen) (o : Out Listen) : Prop where
  records : o.records = []
  release : o.release = false
  done : o.done = false
  chan : o.chan = { l with
    requests := o.chan.requests, writePoint := o.chan.writePoint, inWrite := o.chan.inWrite
    waiting := o.chan.waiting
    ring := { l.ring with current := o.chan.ring.current, ahead := o.chan.ring.ahead } }
  deposit : o.chan.inWrite ++ o.chan.waiting = l.inWrite ++ l.waiting
  grows : ∃ later, o.chan.requests = l.requests ++ later ∧ later.length = o.requests.length ∧
    ∀ e ∈ later, e.stale = false ∧ (e.purpose = .descFetch ∨ e.purpose = .dataWrite)
  current : l.ring.current.isSome = true → o.chan.ring.current = l.ring.current
  ahead : l.ring.ahead.isSome = true → o.chan.ring.ahead = l.ring.ahead

theorem Listen.Pumped.refl (l : Listen) : l.Pumped (Out.only l) :=
  { records := rfl, release := rfl, done := rfl, chan := rfl, deposit := rfl, grows := ⟨[], by simp⟩,
    current := fun _ => rfl, ahead := fun _ => rfl }

theorem Listen.Pumped.andThen {l : Listen} {o : Out Listen} {f : Listen → Out Listen} (h : l.Pumped o)
    (g : o.chan.Pumped (f o.chan)) : l.Pumped (o.andThen f) := by
  obtain ⟨r1, l1, d1, c1, p1, ⟨e1, g1, n1, a1⟩, u1, w1⟩ := h
  obtain ⟨r2, l2, d2, c2, p2, ⟨e2, g2, n2, a2⟩, u2, w2⟩ := g
  refine ⟨by simp [Out.andThen, r1, r2], by simp [Out.andThen, l1, l2], by simp [Out.andThen, d1, d2], ?_, ?_,
    ⟨e1 ++ e2, ?_, ?_, ?_⟩, ?_, ?_⟩
  · simp only [Out.andThen_chan]
    rw [c2]
    rw [c1]
  · rw [Out.andThen_chan, p2, p1]
  · simp [g2, g1]
  · simp [Out.andThen, n1, n2]
  · intro e he
    rcases List.mem_append.mp he with he | he
    exacts [a1 e he, a2 e he]
  · intro hc
    rw [Out.andThen_chan, u2 (by rw [u1 hc]; exact hc), u1 hc]
  · intro hc
    rw [Out.andThen_chan, w2 (by rw [w1 hc]; exact hc), w1 hc]

theorem Listen.nextAhead_pumped {ctx : ChannelContext} {l : Listen} {o : Out Listen}
    (h : l.nextAhead ctx = some o) : l.Pumped o := by
  unfold Listen.nextAhead at h
  split at h
  case isFalse => cases h
  case isTrue hw =>
    simp only [Bool.and_eq_true, ChannelCore.wantsAhead, Option.isNone_iff_eq_none] at hw
    cases h
    refine ⟨rfl, rfl, rfl, rfl, rfl, ⟨[_], rfl, rfl, ?_⟩, fun _ => rfl, ?_⟩
    · simp
    · simp [hw.1.1.2]

theorem Listen.nextRequest_pumped {ctx : ChannelContext} {l : Listen} {o : Out Listen}
    (h : l.nextRequest ctx = some o) : l.Pumped o := by
  unfold Listen.nextRequest at h
  split at h
  · cases h
  · split at h
    case isTrue hw =>
      cases h
      refine ⟨rfl, rfl, rfl, rfl, rfl, ⟨[_], rfl, rfl, by simp⟩, ?_, fun _ => rfl⟩
      intro hs
      rcases ChannelCore.wantsCurrent_cases hw with hc | hc
      · simp [hc] at hs
      · exact hc.symm
    · split at h
      · dsimp only at h
        split at h
        · cases h
          refine ⟨rfl, rfl, rfl, rfl, ?_, ⟨[_], rfl, rfl, by simp⟩, fun _ => rfl, fun _ => rfl⟩
          simp [Listen.write, Listen.withCore, List.append_assoc]
        · exact Listen.nextAhead_pumped h
      · exact Listen.nextAhead_pumped h

theorem Listen.pumpFor_pumped (ctx : ChannelContext) (n : Nat) (l : Listen) : l.Pumped (l.pumpFor ctx n) := by
  induction n generalizing l with
  | zero => exact .refl l
  | succ n ih =>
    unfold Listen.pumpFor
    split
    · exact (Listen.nextRequest_pumped ‹_›).andThen (ih _)
    · exact .refl l

theorem Listen.pump_pumped (ctx : ChannelContext) (l : Listen) : l.Pumped (l.pump ctx) :=
  Listen.pumpFor_pumped ctx _ l

/-- A channel that does not walk its ring makes no request (R93). -/
theorem Listen.pump_of_not_walks {ctx : ChannelContext} {l : Listen} (h : l.walks = false) :
    l.pump ctx = Out.only l := by
  simp [Listen.pump, Config.requestLimit, Listen.pumpFor, Listen.nextRequest, h]

theorem Listen.walks_of_closed {l : Listen} (h : l.state = .closed) : l.walks = false := by
  simp [Listen.walks, h]

theorem Listen.walks_of_halted {l : Listen} (h : l.state = .halted) : l.walks = false := by
  simp [Listen.walks, h]

section
variable (ctx : ChannelContext) (l : Listen)

@[simp] theorem Listen.pump_records : (l.pump ctx).records = [] := (l.pump_pumped ctx).records
@[simp] theorem Listen.pump_release : (l.pump ctx).release = false := (l.pump_pumped ctx).release
@[simp] theorem Listen.pump_done : (l.pump ctx).done = false := (l.pump_pumped ctx).done
@[simp] theorem Listen.pump_state : (l.pump ctx).chan.state = l.state := by rw [(l.pump_pumped ctx).chan]
@[simp] theorem Listen.pump_tag : (l.pump ctx).chan.tag = l.tag := by rw [(l.pump_pumped ctx).chan]
@[simp] theorem Listen.pump_bound : (l.pump ctx).chan.bound = l.bound := by rw [(l.pump_pumped ctx).chan]
@[simp] theorem Listen.pump_expected : (l.pump ctx).chan.expected = l.expected := by
  rw [(l.pump_pumped ctx).chan]
@[simp] theorem Listen.pump_lastSequence : (l.pump ctx).chan.lastSequence = l.lastSequence := by
  rw [(l.pump_pumped ctx).chan]
@[simp] theorem Listen.pump_episode : (l.pump ctx).chan.episode = l.episode := by rw [(l.pump_pumped ctx).chan]
@[simp] theorem Listen.pump_duplicate : (l.pump ctx).chan.duplicate = l.duplicate := by
  rw [(l.pump_pumped ctx).chan]
@[simp] theorem Listen.pump_close : (l.pump ctx).chan.close = l.close := by rw [(l.pump_pumped ctx).chan]
@[simp] theorem Listen.pump_haltCause : (l.pump ctx).chan.haltCause = l.haltCause := by
  rw [(l.pump_pumped ctx).chan]
@[simp] theorem Listen.pump_wordsReceived : (l.pump ctx).chan.wordsReceived = l.wordsReceived := by
  rw [(l.pump_pumped ctx).chan]
@[simp] theorem Listen.pump_resumeWaits : (l.pump ctx).chan.resumeWaits = l.resumeWaits := by
  rw [(l.pump_pumped ctx).chan]
@[simp] theorem Listen.pump_base : (l.pump ctx).chan.ring.base = l.ring.base := by rw [(l.pump_pumped ctx).chan]
@[simp] theorem Listen.pump_ci : (l.pump ctx).chan.ring.ci = l.ring.ci := by rw [(l.pump_pumped ctx).chan]
@[simp] theorem Listen.pump_fi : (l.pump ctx).chan.ring.fi = l.ring.fi := by rw [(l.pump_pumped ctx).chan]
@[simp] theorem Listen.pump_position : (l.pump ctx).chan.ring.position = l.ring.position := by
  rw [(l.pump_pumped ctx).chan]

/-- The deposit keeps its words in order. -/
theorem Listen.pump_deposit : (l.pump ctx).chan.inWrite ++ (l.pump ctx).chan.waiting = l.inWrite ++ l.waiting :=
  (l.pump_pumped ctx).deposit

end

/-! ## Halts (R118) -/

/-- While a burst is on the line a halt is only held. -/
theorem Talk.halt_of_onLine {ctx : ChannelContext} {reason : HaltReason} {t : Talk} (h : t.onLine.isSome = true) :
    t.halt ctx reason = Out.only { t with heldHalts := t.heldHalts ++ [reason] } := by
  simp [Talk.halt, h]

/-- With nothing on the line a halt takes its steps at once. -/
theorem Talk.halt_of_quiet {ctx : ChannelContext} {reason : HaltReason} {t : Talk} (h : t.onLine = none) :
    t.halt ctx reason = t.enterHalted ctx reason := by
  simp [Talk.halt, h]

/-- With no halt held, a report brings none about. -/
theorem Talk.takeHeldHalt_none {ctx : ChannelContext} {t : Talk} (h : t.heldHalts = []) :
    t.takeHeldHalt ctx = Out.only t := by
  simp [Talk.takeHeldHalt, h]

/-- The first halt held is the one taken. -/
theorem Talk.takeHeldHalt_first {ctx : ChannelContext} {t : Talk} {reason : HaltReason} {more : List HaltReason}
    (h : t.heldHalts = reason :: more) (hs : t.state ≠ .halted) :
    t.takeHeldHalt ctx = t.enterHalted ctx reason := by
  simp [Talk.takeHeldHalt, h, hs]

/-! ## Bringing the state in line (R106, R123) -/

section
variable (ctx : ChannelContext) (t : Talk)

/-- Only the state changes (R106, R123). -/
theorem Talk.rejudge_chan : (t.rejudge ctx).chan = { t with state := t.judged } := by
  unfold Talk.rejudge; dsimp only; split <;> rfl

@[simp] theorem Talk.rejudge_requests : (t.rejudge ctx).requests = [] := by
  unfold Talk.rejudge; dsimp only; split <;> rfl

@[simp] theorem Talk.rejudge_release : (t.rejudge ctx).release = false := by
  unfold Talk.rejudge; dsimp only; split <;> rfl

@[simp] theorem Talk.rejudge_done : (t.rejudge ctx).done = false := by
  unfold Talk.rejudge; dsimp only; split <;> rfl

/-- The only record is CHANNEL_STARVED, on entry into STARVED (R113, R125, R133). -/
theorem Talk.rejudge_records : (t.rejudge ctx).records =
    if t.judged = .starved ∧ t.state ≠ .starved then
      [event .channelStarved 0 (channel := some ctx.channel) (slot := t.bound)]
    else [] := by
  unfold Talk.rejudge; dsimp only
  split <;> simp_all [Out.record, Out.only]

end

theorem Talk.judged_closed {t : Talk} (h : t.state = .closed) : t.judged = .closed := by
  simp [Talk.judged, h]

theorem Talk.judged_halted {t : Talk} (h : t.state = .halted) : t.judged = .halted := by
  simp [Talk.judged, h]

/-- A CLOSED or HALTED channel stays as it is. -/
theorem Talk.rejudge_of_stopped {ctx : ChannelContext} {t : Talk} (h : t.state = .closed ∨ t.state = .halted) :
    t.rejudge ctx = Out.only t := by
  have hj : t.judged = t.state := by rcases h with h | h <;> simp [Talk.judged, h]
  unfold Talk.rejudge
  rcases h with h | h <;> simp [hj, h] <;> rw [← h]

/-- A CLOSED or HALTED channel makes no request. -/
theorem Talk.pump_of_stopped {ctx : ChannelContext} {t : Talk} (h : t.state = .closed ∨ t.state = .halted) :
    t.pump ctx = Out.only t :=
  Talk.pump_of_not_walks (h.elim Talk.walks_of_closed Talk.walks_of_halted)

section
variable (ctx : ChannelContext) (l : Listen)

/-- Only the state changes (R106, R123). -/
theorem Listen.rejudge_chan : (l.rejudge ctx).chan = { l with state := l.judged } := by
  unfold Listen.rejudge; dsimp only; split <;> rfl

@[simp] theorem Listen.rejudge_requests : (l.rejudge ctx).requests = [] := by
  unfold Listen.rejudge; dsimp only; split <;> rfl

@[simp] theorem Listen.rejudge_release : (l.rejudge ctx).release = false := by
  unfold Listen.rejudge; dsimp only; split <;> rfl

@[simp] theorem Listen.rejudge_done : (l.rejudge ctx).done = false := by
  unfold Listen.rejudge; dsimp only; split <;> rfl

/-- The only record is CHANNEL_STARVED, on entry into STARVED (R113, R125, R133). -/
theorem Listen.rejudge_records : (l.rejudge ctx).records =
    if l.judged = .starved ∧ l.state ≠ .starved then
      [event .channelStarved 0 (channel := some ctx.channel) (slot := l.bound)]
    else [] := by
  unfold Listen.rejudge; dsimp only
  split <;> simp_all [Out.record, Out.only]

end

theorem Listen.judged_closed {l : Listen} (h : l.state = .closed) : l.judged = .closed := by
  simp [Listen.judged, h]

theorem Listen.judged_halted {l : Listen} (h : l.state = .halted) : l.judged = .halted := by
  simp [Listen.judged, h]

/-- A CLOSED or HALTED channel stays as it is. -/
theorem Listen.rejudge_of_stopped {ctx : ChannelContext} {l : Listen} (h : l.state = .closed ∨ l.state = .halted) :
    l.rejudge ctx = Out.only l := by
  have hj : l.judged = l.state := by rcases h with h | h <;> simp [Listen.judged, h]
  unfold Listen.rejudge
  rcases h with h | h <;> simp [hj, h] <;> rw [← h]

/-- A CLOSED or HALTED channel makes no request. -/
theorem Listen.pump_of_stopped {ctx : ChannelContext} {l : Listen} (h : l.state = .closed ∨ l.state = .halted) :
    l.pump ctx = Out.only l :=
  Listen.pump_of_not_walks (h.elim Listen.walks_of_closed Listen.walks_of_halted)

/-- An outcome that only hands its channel on is that outcome. -/
theorem Out.andThen_of_only {α : Type} {o : Out α} {f : α → Out α} (h : f o.chan = Out.only o.chan) :
    o.andThen f = o := by
  simp [Out.andThen, h, Out.only]

end Sys2Proof.Machine
end

