-- ==== Sys2Proof/Laws/Reports.lean ====
section
/-! SUPPORT. What records and the outcome of one channel's event can do to the event queue, the Host Port and the claim
queue (R140, R154, R167, R168). -/

namespace Sys2Proof.Machine

/-- All a record can do: the queue grows at its tail or stays, the head words stay, and of the Host Port only
EVENT_OVERFLOW can change, and only be set (R167, R168). -/
structure State.Recorded (s t : State) : Prop where
  head : t.evq.head = s.evq.head
  queue : ∃ more, t.evq.queue = s.evq.queue ++ more
  hpt : t.hpt = { s.hpt with flags := { s.hpt.flags with eventOverflow := t.hpt.flags.eventOverflow } }
  overflow : s.hpt.flags.eventOverflow = true → t.hpt.flags.eventOverflow = true

theorem State.Recorded.refl (s : State) : s.Recorded s := ⟨rfl, ⟨[], by simp⟩, rfl, id⟩

theorem State.Recorded.trans {s t u : State} (h : s.Recorded t) (g : t.Recorded u) : s.Recorded u := by
  obtain ⟨a, ⟨m, b⟩, c, d⟩ := h
  obtain ⟨a', ⟨m', b'⟩, c', d'⟩ := g
  refine ⟨a'.trans a, ⟨m ++ m', by rw [b', b, List.append_assoc]⟩, ?_, fun h => d' (d h)⟩
  rw [c', c]

theorem State.post_recorded (s : State) (r : EventRecord) : s.Recorded (s.post r) := by
  unfold State.post State.enter
  split <;> [split; skip]
  · exact ⟨rfl, ⟨_, rfl⟩, rfl, id⟩
  · exact ⟨rfl, ⟨[], by simp [State.setFlags, State.setEvq]⟩, rfl, fun _ => rfl⟩
  · exact .refl s

theorem State.postAll_recorded (s : State) (rs : List EventRecord) : s.Recorded (s.postAll rs) := by
  induction rs generalizing s with
  | nil => exact .refl s
  | cons r rs ih => rw [State.postAll_cons]; exact (s.post_recorded r).trans (ih _)
/-- All a channel's outcome can do to EVQ and HPT: records, and the completion of the command in progress. -/
structure State.Reported (s t : State) : Prop where
  head : t.evq.head = s.evq.head
  queue : ∃ more, t.evq.queue = s.evq.queue ++ more
  hpt : t.hpt = { s.hpt with
    mailbox := t.hpt.mailbox, flags := { s.hpt.flags with eventOverflow := t.hpt.flags.eventOverflow } }
  overflow : s.hpt.flags.eventOverflow = true → t.hpt.flags.eventOverflow = true
  mailbox : t.hpt.mailbox = s.hpt.mailbox ∨ ∃ code, s.hpt.mailbox = .busy code ∧ t.hpt.mailbox = .done .ok code

theorem State.Reported.refl (s : State) : s.Reported s := ⟨rfl, ⟨[], by simp⟩, rfl, id, .inl rfl⟩

theorem State.Reported.trans {s t u : State} (h : s.Reported t) (g : t.Reported u) : s.Reported u := by
  obtain ⟨a, ⟨m, b⟩, c, d, e⟩ := h
  obtain ⟨a', ⟨m', b'⟩, c', d', e'⟩ := g
  refine ⟨a'.trans a, ⟨m ++ m', by rw [b', b, List.append_assoc]⟩, by rw [c', c], fun h => d' (d h), ?_⟩
  rcases e with e | ⟨code, e1, e2⟩
  · rwa [e] at e'
  · rcases e' with e' | ⟨code', e1', e2'⟩
    · exact .inr ⟨code, e1, e'.trans e2⟩
    · rw [e2] at e1'; cases e1'

theorem State.Recorded.reported {s t : State} (h : s.Recorded t) : s.Reported t :=
  have e := h.hpt
  ⟨h.head, h.queue, by rw [e], h.overflow, .inl (by rw [e])⟩

theorem State.commandComplete_reported (s : State) : s.Reported s.commandComplete := by
  unfold State.commandComplete
  split
  · rename_i code h
    exact ⟨rfl, ⟨[], by simp [State.answer, State.setMailbox]⟩, rfl, id, .inr ⟨code, h, rfl⟩⟩
  all_goals exact .refl s

theorem State.carry_reported {α : Type} (s : State) (c : ChannelId) (o : Out α) : s.Reported (s.carry c o) := by
  have h : s.Reported ((s.enqueue c o.requests).postAll o.records) :=
    .trans (t := s.enqueue c o.requests) ⟨rfl, ⟨[], by simp [State.enqueue, State.setMpt]⟩, rfl, id, .inl rfl⟩
      (State.postAll_recorded _ _).reported
  unfold State.carry
  dsimp only
  split
  · exact h.trans (State.commandComplete_reported _)
  · exact h

/-- The RELEASE that an END buffer brings joins the tail of the claim queue, or nothing happens (R69). -/
theorem State.endRelease_cle (s : State) (k : TalkId) : (s.endRelease k).cle = s.cle ∨
    ∃ r : ClaimRequest, (s.endRelease k).cle = { s.cle with queue := s.cle.queue ++ [r] } ∧ r.kind = .release ∧
      r.channel = k ∧ r.attempts = 0 ∧ r.phase = .waiting := by
  unfold State.endRelease
  split
  · exact .inr ⟨_, rfl, rfl, rfl, rfl, rfl⟩
  · exact .inl rfl

theorem State.applyTalk_reported (s : State) (k : TalkId) (f : ChannelContext → Talk → Out Talk) :
    s.Reported (s.applyTalk k f) := by
  unfold State.applyTalk
  dsimp only
  have h : s.Reported ((s.setTalk k (f (s.talkContext k) s.talk[k]).chan).carry (talkChannel k)
      (f (s.talkContext k) s.talk[k])) :=
    .trans (t := s.setTalk k _) ⟨rfl, ⟨[], by simp [State.setTalk]⟩, rfl, id, .inl rfl⟩ (State.carry_reported _ _ _)
  split
  · exact h.trans ⟨by simp, ⟨[], by simp⟩, by simp, by simp, .inl (by simp)⟩
  · exact h

theorem State.applyListen_reported (s : State) (k : ListenId) (f : ChannelContext → Listen → Out Listen) :
    s.Reported (s.applyListen k f) :=
  .trans (t := s.setListen k _) ⟨rfl, ⟨[], by simp [State.setListen]⟩, rfl, id, .inl rfl⟩
    (State.carry_reported _ _ _)

/-- The Claim Engine after an event at a talk channel. -/
theorem State.applyTalk_cle_cases (s : State) (k : TalkId) (f : ChannelContext → Talk → Out Talk) :
    (s.applyTalk k f).cle = s.cle ∨
    ∃ r : ClaimRequest, (s.applyTalk k f).cle = { s.cle with queue := s.cle.queue ++ [r] } ∧ r.kind = .release ∧
      r.channel = k ∧ r.attempts = 0 ∧ r.phase = .waiting := by
  unfold State.applyTalk
  dsimp only
  split
  · simpa using State.endRelease_cle ((s.setTalk k (f (s.talkContext k) s.talk[k]).chan).carry (talkChannel k)
      (f (s.talkContext k) s.talk[k])) k
  · exact .inl (by simp)

end Sys2Proof.Machine
end

