-- ==== Sys2Proof/Tests/Slice0.lean ====
section
/-! SUPPORT. The model's own tests: ill-formed operands,
  the formats against values worked out apart from the model, the
worked examples of spec/, and for each statement with hypotheses a state that meets them. -/

set_option maxRecDepth 30000

namespace Sys2Proof.Tests

open Sys2Proof Sys2Proof.Machine

/-! ## Helpers -/

/-- The state a command leaves. -/
def after (c : Instr) (s : State) : State :=
  match exec c s with
  | .next t => t
  | .fault _ | .refused _ => s

/-- Station 6 on a shape-16 link with claim retry limit 2, as in the leaving example of chapter 2. -/
def record : StartRecord :=
  { id := 6, shape := .slots16, period := 272, retryLimit := 2,
    mask := { claim := true, slot := true, data := true, trouble := true } }

/-- The station in a state with its START record; its first marker accepted, E at 0, the round counter at 100. -/
def station (st : StationState) : State :=
  { State.reset with
    stc := { Stc.powerOn with state := st, start := some record, cause := if st = .fault then some .stuck else none }
    rtm := { Rtm.stopped with elapsed := some 0, lastMarker := some 0, counter := 100 } }

/-- Parameter words for the next command. -/
def State.params (s : State) (a b c d : Word) : State :=
  s.setHpt { s.hpt with params := #v[a, b, c, d] }

/-- A talk channel in a state, with its tag and its slot. -/
def talker (st : TalkState) (bound : Option Slot) : Talk :=
  { Talk.clear with
    state := st, tag := some 0x44, bound, sequence := bound.map fun _ => 5
    ring := { base := 0x1000, ci := 0, fi := 0, current := none, ahead := none, position := 0 } }

/-- A listen channel in a state, with its tag and its slot. -/
def listener (st : ListenState) (bound : Option Slot) : Listen :=
  { Listen.clear with
    state := st, tag := some 0x5C, bound, expected := bound.map fun _ => 9
    ring := { base := 0x1000, ci := 0, fi := 0, current := none, ahead := none, position := 0 } }

/-- A descriptor of a number of words. -/
def buffer (words : Nat) (final : Bool := false) : Descriptor :=
  { address := 0x20000, length := words, event := true, final }

/-- Staged words of one descriptor. -/
def staged (index : RingIndex) (words : List Word) : List StagedWord :=
  words.map fun w => { index, word := w }

/-! ## Ill-formed operands -/

theorem test_wf_unknown_code_is_not_start : (Instr.unknownCommand 1).wellFormed = false := by decide
theorem test_wf_lost_code_is_not_reset : (Instr.lostCommandWrite 4).wellFormed = false := by decide
theorem test_wf_ignored_word_is_not_flags : (Instr.windowWriteIgnored 2 0).wellFormed = false := by decide
theorem test_wf_ignored_word_is_not_fill : (Instr.windowWriteIgnored 29 0).wellFormed = false := by decide
theorem test_wf_burst_starts_dominant :
    (Instr.burstReceived { header := 0x400000, payload := Vector.replicate 8 0, check := 0 }).wellFormed = false := by
  decide
theorem test_wf_recognition_ends_in_the_pattern : (Instr.markerRecognitionEnded 0 16).wellFormed = false := by decide
theorem test_wf_good : (Instr.unknownCommand 13).wellFormed = true ∧
  (Instr.windowWriteIgnored 0x46 0).wellFormed = true ∧
    (Instr.markerRecognitionEnded 0 15).wellFormed = true := by decide

/-! ## Formats (R172 to R174) -/

/-- The published check values of these two generators over the nine bytes "123456789", with the same start values, no
reflection and no final inversion. -/
theorem test_check_known_values :
    checkOf 0x1021#16 0xFFFF#16 (bitsOf 0x313233343536373839#72) = 0x29B1#16 ∧
    checkOf 0x07#8 0#8 (bitsOf 0x313233343536373839#72) = 0xF4#8 := by decide

/-- The three markers, their checks divided out by hand (R172, R173). -/
theorem test_marker_words : ownMarker .slots8 = 0x16CF2E ∧ ownMarker .slots16 = 0x16CF6D ∧
    ownMarker .slots32 = 0x16CFA8 := by decide

/-- The first 11 message bits of the example of section 1.5: CLAIM, slot 5 (00101), station 3 (00011). -/
theorem test_claim_message_bits :
    (ClaimMessage.bits { kind := .claim, slot := 5, station := 3, tag := 0xA7 }).extractLsb' 8 19 =
      0b1001010001110100111#19 := by decide

/-- Header bits of R172: start 0, owner 00110, tag 01000100, DATA 1, count 0001, sequence 0101. -/
theorem test_burst_header_bits :
    (Burst.line { owner := 6, tag := 0x44, kind := .data, sequence := 5, words := [0xDEADBEEF] }).header =
      0b00011001000100100010101#23 := by decide

/-- Words 2 and 3 of R174: DONE, MEMORY 2, 20 words; sequence 9 present, stamp 0x012C. -/
theorem test_completion_words :
    completionWord2 .memory 20 = 0xA0000014 ∧ completionWord3 0x012C (some 9) = 0x0190012C ∧
    completionWord3 0x012C none = 0x0000012C := by decide

/-- R94: a buffer may end with its region's last byte, and not one word later; bits 29:14 of word 1 are ignored. -/
theorem test_descriptor_checks :
    (descriptorOf 0x2FFF0 0x3FFFC004).valid = true ∧ (descriptorOf 0x2FFF0 5).valid = false ∧
    (descriptorOf 0x20002 4).valid = false ∧ (descriptorOf 0x20000 0).valid = false := by decide

/-! ## Station commands -/

/-- START's record from the layout of R177: id 6, shape code 1, 272 µs, retry limit 2 with mask bits 8 and 11. -/
theorem test_start_keeps_the_record :
    (after .start (State.params State.reset 6 1 272 0x902)).stc.start =
      some { id := 6, shape := .slots16, period := 272, retryLimit := 2,
             mask := { claim := true, slot := false, data := false, trouble := true } } ∧
    (after .start (State.params State.reset 6 1 272 0x902)).linkWord = 1 := by decide

/-- One microsecond below 16 + 16N is out of range (R3, R23, R177). -/
theorem test_start_refuses_a_short_period :
    (after .start (State.params State.reset 6 1 271 2)).hpt.mailbox = .done .badParam 1 ∧
    (after .start (State.params State.reset 6 1 271 2)).stc = Stc.powerOn := by decide

theorem test_join_listens : (after .join (station .ready)).stc.state = .listening ∧
    (after .join (station .ready)).rtm = { Rtm.stopped with elapsed := some 0 } := by decide

/-- The claim queue of the leaving example before LEAVE: a SENT-WON CLAIM for slot 12, a CLAIM for ANY behind it. -/
def leaving : State :=
  { (station .joined) with
    cle := {
      queue := [
        { kind := .claim, channel := 2, slot := some 12, tag := 0x12, attempts := 0, sentSlot := some 12,
          phase := .sentWon },
        { kind := .claim, channel := 3, slot := none, tag := 0x13, attempts := 0, sentSlot := none,
          phase := .waiting }]
      onLine := none, lineEnds := none }
    talk := #v[talker .running (some 3), talker .running (some 9), talker .armed none, talker .armed none,
               Talk.clear, Talk.clear, Talk.clear, Talk.clear] }

/-- The queue after LEAVE, from the table of the leaving example, and its marks and record. -/
theorem test_leave_example :
    (after .leave leaving).cle.queue.map (fun r => (r.kind, r.slot, r.channel, r.phase)) =
      [(.claim, some 12, 2, .sentWon), (.release, some 3, 0, .waiting), (.release, some 9, 1, .waiting)] ∧
    (after .leave leaving).evq.queue.map (fun r => (r.kind, r.channel, r.detail)) = [(.withdrawn, some 3, 4)] := by
  decide

/-- RESET keeps the record and the counters and leaves one RESET_DONE with stamp 0 (R40). -/
theorem test_reset_keeps :
    (after .reset { leaving with lif := { Lif.powerOn with burstCheck := 7 } }).stc.start = some record ∧
    (after .reset { leaving with lif := { Lif.powerOn with burstCheck := 7 } }).lif.burstCheck = 7 ∧
    (after .reset leaving).evq.queue.map (fun r => (r.kind, r.stamp)) = [(.resetDone, 0)] := by decide

/-- The band over four windows: 3, 9, 4 and 1 errors (example of chapter 2). -/
theorem test_band_windows : Band.judged .good 3 = .good ∧ Band.judged .good 9 = .degraded ∧
    Band.judged .degraded 4 = .degraded ∧ Band.judged .degraded 1 = .good := by decide

/-! ## The link -/

/-- Three messages in one window: station 3 wins; stations 9 and 1 lose and hear its message (section 1.5). -/
theorem test_three_messages :
    let m : ClaimMessage := { kind := .claim, slot := 5, station := 3, tag := 0x40 }
    let line : BitVec 28 := 0#1 ++ m.bits
    readWindow 16 (some m) line = { message := some m, part := .won, badCheck := false } ∧
    readWindow 16 (some { m with station := 9 }) line = { message := some m, part := .lost, badCheck := false } ∧
    readWindow 16 (some { m with slot := 7, station := 1 }) line =
      { message := some m, part := .lost, badCheck := false } ∧
    readWindow 16 none line = { message := some m, part := .notSent, badCheck := false } := by decide

/-- Noise makes message bit 19, the last tag bit, dominant,
  and bits 20 to 27 carry nobody's message (same example). -/
theorem test_three_messages_with_noise :
    let m : ClaimMessage := { kind := .claim, slot := 5, station := 3, tag := 0x41 }
    let line : BitVec 28 := 0#1 ++ m.covered.extractLsb' 1 18 ++ 0#1 ++ 0xFF#8
    readWindow 16 (some m) line = { message := none, part := .lost, badCheck := true } ∧
    readWindow 16 none line = { message := none, part := .notSent, badCheck := true } := by decide

/-- A marker of the own shape in the first half of the period is early (R7), and a second foreign one in two rounds a
SHAPE fault (R9). -/
theorem test_heard_markers :
    (after (.heardMarker 2600 (ownMarker .slots16))
      { (station .joined) with lif := { Lif.powerOn with opened := 17 }}).lif.markerEarly = 1 ∧
    (after (.heardMarker 5300 (ownMarker .slots8))
      { (station .joined) with rtm := { (station .joined).rtm with strike := true } }).stc.cause = some .shape := by
  decide

/-- The station's marker begins at E = P = 272 µs on an idle line (R5),
  and is accepted from its own first bit (R6). -/
theorem test_own_marker :
    (after (.periodReached true) (station .joined)).lif.activity = .marker 5440 ∧
    (after .ownMarkerSent { (station .joined) with lif := { Lif.powerOn with activity := .marker 5440 } }).rtm.counter =
      101 := by decide

theorem test_idle_line_later : (after (.lineIdleMarker 5500) (station .joined)).lif.activity = .marker 5500 ∧
    (after (.lineIdleMarker 5439) (station .joined)) = station .joined := by decide

/-- Recognition ends at the second bit, recessive where the pattern has 0: only the first bit was dominant (R2). -/
theorem test_recognition_ended :
    (after (.markerRecognitionEnded 5300 1) (station .joined)).lif.lastDominant = 5301 ∧
    (after (.markerRecognitionEnded 5300 1) (station .joined)).stc.windowErrors = 0 := by decide

/-- A marker abandoned as slot 0 opens at 160: its dominant bits before 160 still keep the line from being idle (R2). Of
the pattern's 0, 0, 0, 1, 0 from 155 on, the last dominant bit ends at 160. -/
theorem test_abandoned_recognition_reads_its_bits :
    (after (.markerRecognitionEnded 155 5) (station .joined)).lif.lastDominant = 160 ∧
    (after (.markerRecognitionEnded 155 5) (station .joined)).rtm.elapsed = some 160 := by decide

/-- A malformed burst in the last slot, 15, is received to the slot's end, 160 + 16 × 320 = 5280, and a marker on the line
before that is none (R2, R16). -/
theorem test_malformed_burst_fills_its_slot :
    let s : State := { (station .joined) with lif := { Lif.powerOn with activity := .receiving 15, opened := 17 } }
    let t := after (.burstReceived { header := 0, payload := Vector.replicate 8 (-1), check := 0xFFFF }) s
    t.lif.lastDominant = 4983 ∧ t.lif.watchesFrom = 5280 ∧
    (after (.heardMarker 5100 (ownMarker .slots16)) t).rtm.counter = 100 ∧
    (after (.heardMarker 5300 (ownMarker .slots16)) t).rtm.counter = 101 := by decide

theorem test_stuck_line : (after .lineStuckTimeout (station .joined)).stc.cause = some .stuck ∧
    (after .lineStuckTimeout (station .joined)).hpt.flags.lineStuck = true := by decide

/-- The leaving example's queue at FAULT (R81): FAULT_ENTERED, then one WITHDRAWN, cause FAULT 5, for each request in
queue order, SENT-WON and WAITING, the second one's slot absent; with CLAIM masked (R83, R166) FAULT_ENTERED alone. -/
theorem test_fault_withdraws_the_queue :
    (after .lineStuckTimeout leaving).evq.queue.map (fun r => (r.kind, r.channel, r.slot, r.tag, r.detail)) =
      [(.faultEntered, none, none, none, 2), (.withdrawn, some 2, some 12, some 0x12, 5),
       (.withdrawn, some 3, none, some 0x13, 5)] ∧
    (after .lineStuckTimeout { leaving with
      stc := { leaving.stc with start := some { record with mask := { record.mask with claim := false } } } }).evq.queue.map
      EventRecord.kind = [.faultEntered] := by decide

theorem test_duplicate_id_is_taken :
    (after .faultEntry
      { (station .joined) with
        stc := { (station .joined).stc with report := some { slot := 4, tag := 0x21 } } }).evq.queue.map
      (fun r => (r.kind, r.slot, r.tag, r.detail)) = [(.faultEntered, some 4, some 0x21, 3)] := by decide

/-! ## The map at a boundary (examples of chapter 3) -/

/-- A map with one entry, observation and message. -/
def slotState (e : Entry) (o : Observation) (m : Option ClaimMessage) (part : WindowPart) : State :=
  { (station .joined) with
    smap := { Smap.clear with
      entries := (Vector.replicate 32 Entry.free).set 3 e
      observations := (Vector.replicate 32 (none : Option Observation)).set 3 (some o)
      message := m, part } }

/-- The missed grant, round 11: C adopts B's slot, and its own winning CLAIM is not applied; B keeps its entry. -/
theorem test_missed_grant :
    ((slotState .free (.valid 5 0x40) (some { kind := .claim, slot := 3, station := 6, tag := 0x7A }) .won).slotStep
      3).smap.entries[3] = .peer 5 0x40 0 none ∧
    ((slotState (.own 0x40 none 0) (.sentMatch 0x40)
      (some { kind := .claim, slot := 3, station := 9, tag := 0x7A }) .notSent).slotStep 3).smap.entries[3] =
      .own 0x40 none 0 := by decide

/-- The missed release: rounds 31 and 38 at C. -/
theorem test_missed_release :
    ((slotState (.peer 2 0x21 0 none) .silent none .notSent).slotStep 3).smap.entries[3] = .peer 2 0x21 1 none ∧
    ((slotState (.peer 2 0x21 7 none) .bad none .notSent).slotStep 3).smap.entries[3] = .free := by decide

/-- The collision: rounds 42, 43 and 44 at A. -/
theorem test_collision :
    ((slotState (.own 0x10 none 0) (.sentMismatch none) none .notSent).slotStep 3).smap.entries[3] =
      .own 0x10 none 1 ∧
    ((slotState (.own 0x10 none 1) (.sentMismatch none) none .notSent).slotStep 3).smap.entries[3] =
      .quarantine 8 ∧
    ((slotState (.quarantine 8) .silent none .notSent).slotStep 3).smap.entries[3] = .quarantine 7 := by decide

/-- The collision, round 51: a burst takes the entry from QUARANTINE(1) straight to OWNED(5), with no countdown. -/
theorem test_collision_adoption :
    ((slotState (.quarantine 1) (.valid 5 0x30) none .notSent).slotStep 3).smap.entries[3] = .peer 5 0x30 0 none ∧
    ((slotState (.quarantine 1) .silent none .notSent).slotStep 3).smap.entries[3] = .free := by decide

/-- A boundary applies the last stamp and gives the settled notice (R47, R62). -/
theorem test_boundary_settles :
    (after .slotMapBoundaryWork
      { (station .joined) with boundary := { BoundaryWork.nothing with slotMap := true } }).smap.stamp = 100 ∧
    (after .slotMapBoundaryWork
      { (station .joined) with boundary := { BoundaryWork.nothing with slotMap := true } }).boundary =
      { slotMap := false, claims := true, talk := true, listen := true, station := false } := by decide

/-! ## Claims (chapter 4) -/

/-- A CLAIM for ANY is sent for the lowest FREE slot (R72), here slot 1. -/
theorem test_claim_any :
    (after .claimWindowOpen
      { leaving with
        cle := { leaving.cle with queue := leaving.cle.queue.drop 1 }
        smap := { Smap.clear with
          entries := (Vector.replicate 32 Entry.free).set 0 (.peer 9 0x30 0 none) } }).lif.activity =
      .window (some { kind := .claim, slot := 1, station := 6, tag := 0x13 }) := by decide

/-- Round 104 of the leaving example: the second lost attempt reaches the limit and the RELEASE expires. -/
theorem test_release_expires :
    let s : State := { (station .leaving) with
      lif := { Lif.powerOn with
        activity := .window (some { kind := .release, slot := 9, station := 6, tag := 0x11 }), opened := 1 }
      cle := {
        queue := [{ kind := .release, channel := 1, slot := some 9, tag := 0x11, attempts := 1, sentSlot := some 9,
                    phase := .waiting }]
        onLine := some 1, lineEnds := none } }
    (after (.claimWindowResult 0) s).cle.queue = [] ∧
    (after (.claimWindowResult 0) s).evq.queue.map (fun r => (r.kind, r.slot, r.detail)) =
      [(.releaseExpired, some 9, 2)] := by decide

/-- Round 100 of the leaving example at the boundary: the won CLAIM is GRANTED once its channel is bound (R74). -/
theorem test_claim_granted :
    let s : State := { leaving with
      boundary := { BoundaryWork.nothing with claims := true }
      smap := { Smap.clear with entries := (Vector.replicate 32 Entry.free).set 12 (.own 0x12 none 0) }
      talk := leaving.talk.set 2 (talker .starved (some 12)) }
    (after .claimSettle s).evq.queue.map (fun r => (r.kind, r.channel, r.slot)) = [(.granted, some 2, some 12)] := by
  decide

/-- CLAIM's slot parameter: 255 is ANY, and slot 16 is none of a shape-16 round (R67, R177). -/
theorem test_claim_command :
    (after .claim (State.params { leaving with cle := Cle.clear } 2 255 0 0)).cle.queue.map
      (fun r => (r.kind, r.channel, r.slot)) = [(.claim, 2, none)] ∧
    (after .claim (State.params leaving 2 16 0 0)).hpt.mailbox = .done .badParam 9 := by decide

theorem test_release_command :
    (after .release (State.params leaving 1 0 0 0)).cle.queue.length = 3 ∧
    (after .release (State.params leaving 2 0 0 0)).hpt.mailbox = .done .channelState 10 := by decide

/-! ## Rings and channels (examples of chapters 5 to 7) -/

/-- OPEN_TALK with two descriptors fetches descriptor 0 at once (R93, R107). -/
theorem test_open_talk :
    (after .openTalk (State.params (station .ready) 4 0x5C 0x200 2)).mpt.waiting[4] =
      [{ purpose := .descFetch, address := 0x200, words := 2, requester := 4, data := [] }] ∧
    (after .openTalk (State.params (station .ready) 4 0x5C 0x100 2)).hpt.mailbox = .done .badParam 5 := by decide

theorem test_open_listen :
    (after .openListen (State.params (station .joined) 7 0x5C 0x200 0)).listen[7].state = .waiting ∧
    (after .openListen (State.params (station .leaving) 7 0x5C 0x200 0)).hpt.mailbox = .done .badState 6 := by decide

/-- Talk channel 2 of the ring example at the boundary closing round 300. -/
def extending : State :=
  { (station .joined) with
    lif := { Lif.powerOn with
      activity := .sending 4 { owner := 6, tag := 0x44, kind := .data, sequence := 4, words := List.replicate 8 7 }
      opened := 6 }
    talk := (Vector.replicate 8 Talk.clear).set 2
      { (talker .running (some 4)) with
        ring := { base := 0x1000, ci := 5, fi := 7, current := some (.held (buffer 20)),
                  ahead := some (.held (buffer 12)), position := 16 }
        staging := staged 5 [1, 2, 3, 4] ++ staged 6 (List.replicate 12 9)
        readPoint := some (7, 0)
        onLine := some (staged 5 [1, 2, 3, 4] ++ staged 6 (List.replicate 4 9)) } }

/-- The burst of round 301: buffer 5 is written back OK with 20, CI is 6, position 4, 8 words staged, no fetch. -/
theorem test_burst_completes_a_buffer :
    let readback := (Burst.line
      { owner := 6, tag := 0x44, kind := .data, sequence := 4, words := List.replicate 8 7 })
    let t := (after (.burstSent readback) extending).talk[2]
    t.ring = { base := 0x1000, ci := 6, fi := 7, current := some (.held (buffer 12)), ahead := none, position := 4 } ∧
    t.staging.length = 8 ∧
    (after (.burstSent readback) extending).mpt.waiting[2] =
      [{ purpose := .writeback, address := 0x1058, words := 2, requester := 2,
         data := [0x80000014, 0x00000064] }] := by decide

/-- A writeback failed while that burst was on the line: the completion and the fetch it allows come first, and then the
halt, which writes back the 4 words of buffer 6 (R97 step 5, R118). -/
theorem test_held_halt_follows_the_report :
    let readback := (Burst.line
      { owner := 6, tag := 0x44, kind := .data, sequence := 4, words := List.replicate 8 7 })
    let s : State := { extending with
      talk := extending.talk.set 2 { extending.talk[2] with
        heldHalts := [.writebackFailed 4], ring := { extending.talk[2].ring with fi := 8 } } }
    (after (.burstSent readback) s).talk[2].state = .halted ∧
    (after (.burstSent readback) s).mpt.waiting[2].map (fun r => (r.purpose, r.address, r.data.head?)) =
      [(.writeback, 0x1058, some 0x80000014), (.descFetch, 0x1070, none),
       (.writeback, 0x1068, some 0xA0000004)] ∧
    (after (.burstSent readback) s).evq.queue.map (fun r => (r.kind, r.detail)) = [(.channelHalted, 2 + 256 * 4)] := by
  decide

/-- With a failed read of the current, whose halt is held, no ahead is fetched (R93, R101). -/
theorem test_no_ahead_behind_a_failed_read :
    let t : Talk := { (talker .running (some 4)) with
      ring := { base := 0x1000, ci := 5, fi := 8, current := some (.held (buffer 8)), ahead := none, position := 0 }
      onLine := some [], readPoint := some (6, 0) }
    (t.pump { channel := 2, stamp := 0 }).requests.length = 1 ∧
    (Talk.pump { channel := 2, stamp := 0 } { t with heldHalts := [.dataFailed] }).requests = [] := by decide

/-- The same channel later in round 301, with nothing left to read of buffer 6. -/
def extended : State :=
  { (station .joined) with
    talk := (Vector.replicate 8 Talk.clear).set 2
      { (talker .running (some 4)) with
        ring := { base := 0x1000, ci := 6, fi := 7, current := some (.held (buffer 12)),
                  ahead := none, position := 4 }
        staging := staged 6 (List.replicate 8 9), readPoint := some (7, 0) } }

/-- FI = 8 is taken and the ahead is fetched; with descriptor 7 taken, FI = 7 is a retract (ring example). -/
theorem test_fill_index_writes :
    (after (.fillIndexWrite 2 8) extended).talk[2].ring.ahead = some .fetching ∧
    (after (.fillIndexWrite 2 7) (after (.fillIndexWrite 2 8) extended)).talk[2].ring.fi = 8 ∧
    (after (.fillIndexWrite 2 7) (after (.fillIndexWrite 2 8) extended)).evq.queue.map
      (fun r => (r.kind, r.channel, r.detail)) = [(.fillRejected, some 2, 1)] := by decide

/-- The read that follows once descriptor 7 is HELD: words 0 to 7 of its 10 (ring example). -/
theorem test_fetch_response_reads :
    let s := after .arbiterGrant (after (.fillIndexWrite 2 8) extended)
    (after (.memoryResponse false #v[0x30000, 10, 0, 0, 0, 0, 0, 0]) s).mpt.waiting[2] =
      [{ purpose := .dataRead, address := 0x30000, words := 8, requester := 2, data := [] }] := by decide

/-- The rewind of the lost-slot example at the boundary closing round 202: staging empty, the old read stale, reads of
words 0 to 7 and of words 8 and 9 of buffer 13. -/
theorem test_rewind :
    let t : Talk := { (talker .running (some 9)) with
      ring := { base := 0x1000, ci := 13, fi := 14, current := some (.held (buffer 10)),
                ahead := none, position := 0 }
      staging := staged 13 (List.replicate 8 1), readPoint := some (14, 0)
      requests := [{ purpose := .dataRead, stale := false, index := 13, words := 2, ok := false, event := false }] }
    let o := Talk.loseSlot { channel := 3, stamp := 202 } t
    o.chan.state = .armed ∧ o.chan.staging = [] ∧ o.chan.ring = t.ring ∧
    o.chan.requests.map (fun e => (e.stale, e.words)) = [(true, 2), (false, 8), (false, 2)] ∧
    o.requests.map MemRequest.address = [0x20000, 0x20020] := by decide

/-- The ring example's channel loses its slot with 16 words of buffer 5 sent (R116): it reads words 16 to 19 of it at
buffer address + 64, and then fetches descriptor 6 again. -/
theorem test_rewind_reads_from_position :
    (Talk.loseSlot { channel := 2, stamp := 300 } extending.talk[2]).requests.map
      (fun r => (r.purpose, r.address, r.words)) = [(.dataRead, 0x20040, 4), (.descFetch, 0x1060, 2)] := by decide

/-- With 9 words staged a read of 8 waits, and with 8 it is made (R108); with 1 word to the buffer's end 15 staged words
leave it room. -/
theorem test_reads_wait_for_room :
    let t (n offset : Nat) : Talk := { (talker .armed none) with
      ring := { base := 0x1000, ci := 5, fi := 6, current := some (.held (buffer 20)), ahead := none, position := 0 }
      staging := staged 5 (List.replicate n 1), readPoint := some (5, offset) }
    let made (t : Talk) := (Talk.pump { channel := 2, stamp := 300 } t).requests.map fun r => (r.address, r.words)
    made (t 9 8) = [] ∧ made (t 8 8) = [(0x20020, 8)] ∧ made (t 15 19) = [(0x2004C, 1)] := by decide

/-- An own slot with 10 words staged sends 8 of them and keeps them staged until the report (R111). -/
theorem test_slot_sends :
    let s : State := { extended with lif := { Lif.powerOn with opened := 5 } }
    (after (.slotOpen true) s).lif.activity =
      .sending 4 { owner := 6, tag := 0x44, kind := .data, sequence := 5, words := List.replicate 8 9 } ∧
    (after (.slotOpen true) s).talk[2].sequence = some 6 := by decide

theorem test_slot_listens :
    let s : State := { (station .joined) with lif := { Lif.powerOn with opened := 5 } }
    (after (.slotOpen true) s).smap.observations[4] = some .silent ∧
    (after (.slotOpen false) s).lif.activity = .receiving 4 := by decide

/-- Listen channel 2 of the moving-stream example, bound to slot 11, while the burst of round 501 is received. -/
def moving : State :=
  { (station .joined) with
    lif := { Lif.powerOn with activity := .receiving 11, opened := 13 }
    listen := (Vector.replicate 8 Listen.clear).set 2
      { (listener .receiving (some 11)) with
        ring := { base := 0x1000, ci := 20, fi := 23, current := some (.held (buffer 10)),
                  ahead := some (.held (buffer 40)), position := 4 }
        writePoint := some (20, 4) } }

/-- A burst of 8 words from station 3 with the stream's tag, 0x5C. -/
def streamed (sequence : BitVec 4) : Burst :=
  { owner := 3, tag := 0x5C, kind := .data, sequence, words := [0, 1, 2, 3, 4, 5, 6, 7] }

/-- Round 501: 6 words to words 4 to 9 of buffer 20 and 2 words to buffer 21, all 8 in writes, 10 expected next. -/
theorem test_stream_is_written :
    let o := Listen.take { channel := 10, stamp := 501 } 11 (streamed 9) moving.listen[2]
    o.requests.map (fun r => (r.address, r.words)) = [(0x20010, 6), (0x20000, 2)] ∧ o.chan.inWrite.length = 8 ∧
    o.chan.waiting = [] ∧ o.chan.expected = some 10 ∧ o.records = [] := by decide

/-- Round 503: sequence 11 where 10 is expected gives SEQUENCE_GAP with detail 1, and 12 is expected next. -/
theorem test_sequence_gap :
    let o := Listen.take { channel := 10, stamp := 503 } 11 (streamed 11)
      { moving.listen[2] with expected := some 10 }
    o.records.map (fun r => (r.kind, r.detail, r.station)) = [(.sequenceGap, 1, some 3)] ∧
    o.chan.expected = some 12 := by decide

/-- The same gap by way of the line, in the record that the queue holds; and a FILL with the expected sequence, which moves
it on alone. -/
theorem test_received_bursts_reach_the_check :
    (after (.burstReceived (streamed 11).line) moving).evq.queue.map (fun r => (r.kind, r.channel, r.detail)) =
      [(.sequenceGap, some 10, 2)] ∧
    (after (.burstReceived (Burst.line { streamed 9 with kind := .fill, words := [] })) moving).listen[2] =
      { moving.listen[2] with expected := some 10 } := by decide

/-- The station's own burst reaches a listen channel that follows its tag by loopback (R15, R127). -/
theorem test_loopback :
    let s : State := { extending with
      listen := (Vector.replicate 8 Listen.clear).set 1
        { (listener .receiving (some 4)) with tag := some 0x44, expected := some 4 } }
    let sent : Burst := { owner := 6, tag := 0x44, kind := .data, sequence := 4, words := List.replicate 8 7 }
    (after (.burstSent sent.line) s).listen[1].waiting.map DepositWord.word = List.replicate 8 7 ∧
    (after (.burstSent sent.line) s).listen[1].expected = some 5 ∧
    (after (.burstSent { sent.line with check := 0 }) s).listen = s.listen := by decide

/-- 6 words for an END buffer with 4 words left: 4 are written, and the others wait at its end (R131). -/
theorem test_write_point_stops_at_end :
    let l : Listen := { moving.listen[2] with
      ring := { moving.listen[2].ring with current := some (.held (buffer 10 true)) }, writePoint := some (20, 6)
      waiting := List.replicate 6 { word := 1, sequence := 8 } }
    let o := Listen.pump { channel := 10, stamp := 501 } l
    o.requests.map (fun r => (r.address, r.data.length)) = [(0x20018, 4)] ∧ o.chan.waiting.length = 2 ∧
    o.chan.writePoint = some (20, 10) := by decide

/-- A bad burst is BAD in the map and counted (round 502). -/
theorem test_bad_burst :
    let s := after (.burstReceived { header := 0, payload := Vector.replicate 8 0, check := 0 }) moving
    s.smap.observations[11] = some .bad ∧ s.lif.burstCheck = 1 ∧ s.listen = moving.listen := by decide

/-- Rounds 504 and 506: STREAM_GONE for slot 11, then STREAM_BOUND naming slot 6 and station 3. -/
theorem test_stream_moves :
    let s : State := { moving with boundary := { BoundaryWork.nothing with listen := true } }
    (after .listenBoundaryWork s).evq.queue.map (fun r => (r.kind, r.slot)) = [(.streamGone, some 11)] ∧
    (after .listenBoundaryWork { s with
      smap := { Smap.clear with entries := (Vector.replicate 32 Entry.free).set 6 (.peer 3 0x5C 0 none) }
      listen := s.listen.set 2 { s.listen[2] with state := .waiting, bound := none } }).evq.queue.map
      (fun r => (r.kind, r.slot, r.station)) = [(.streamBound, some 6, some 3)] := by decide

/-- The example of chapter 9: talk channel 2 on slot 4, 5 words of descriptor 17 done. At the boundary slot 4 is in
QUARANTINE(8), the channel CLOSED with CI 18, descriptor 17 written back PARTIAL (1) with 5 words, DONE shown with OK for
CLOSE, and no record made. -/
theorem test_close_example :
    let s : State := { (station .joined) with
      smap := { Smap.clear with
        entries := (Vector.replicate 32 Entry.free).set 4 (.own 0x44 none 0)
        observations := (Vector.replicate 32 none).set 4 (some (.sentMatch 0x44)) }
      talk := (Vector.replicate 8 Talk.clear).set 2 { (talker .running (some 4)) with
        ring := { base := 0x1000, ci := 17, fi := 19, current := some (.held (buffer 20)),
                  ahead := some (.held (buffer 12)), position := 5 } } }
    let t := after .talkBoundaryWork (after .slotMapBoundaryWork
      { (after .close (State.params s 2 0 0 0)) with boundary := { BoundaryWork.nothing with slotMap := true } })
    t.smap.entries[4] = .quarantine 8 ∧ t.talk[2].state = .closed ∧ t.talk[2].ring.ci = 18 ∧
    t.mpt.waiting[2] = [{ purpose := .writeback, address := 0x1118, words := 2, requester := 2,
                          data := [0x90000005, 0x00000064] }] ∧
    t.windowRead 8 = 0x00070002 ∧ t.evq.queue = [] := by decide

/-- A CLOSE on the link waits for the boundary with the mailbox BUSY (R154),
  and completes there once unbound (R120). -/
theorem test_close_waits :
    (after .close (State.params leaving 2 0 0 0)).hpt.mailbox = .busy 7 ∧
    (after .talkBoundaryWork
      { (after .close (State.params leaving 2 0 0 0)) with
        boundary := { BoundaryWork.nothing with talk := true } }).hpt.mailbox = .done .ok 7 := by decide

theorem test_resume_needs_halted :
    (after .resume (State.params leaving 2 0 0 0)).hpt.mailbox = .done .channelState 8 ∧
    (after .resume (State.params { (station .ready) with
      listen := (Vector.replicate 8 Listen.clear).set 1 (listener .halted none) } 9 0 0 0)).listen[1].state =
      .waiting := by decide

/-! ## Memory Port (example of chapter 8) -/

/-- The requests of the example: a to f, told apart by their addresses. -/
def asked (address : Word) (c : ChannelId) : MemRequest :=
  { purpose := .dataRead, address, words := 8, requester := c, data := [] }

/-- Six channels' lists, the pointer at listen channel 3. -/
def sixChannels : Mpt :=
  { Mpt.powerOn with
    waiting := ((((Vector.replicate 16 []).set 0 [asked 0xA 0, asked 0xB 0]).set 3 [asked 0xC 3]).set 10
      [asked 0xD 10, asked 0xE 10]).set 13 [asked 0xF 13]
    pointer := 11 }

/-- The first search: f, a, c, d are issued, the pointer names listen channel 2, b and e wait. -/
theorem test_arbiter_search :
    let m := sixChannels.grant.grant.grant.grant.grant
    m.outstanding.map MemRequest.address = [0xF, 0xA, 0xC, 0xD] ∧ m.pointer = 10 ∧
    m.waiting[0] = [asked 0xB 0] ∧ m.waiting[10] = [asked 0xE 10] := by decide

/-- After RESET with four outstanding, the count is 4 and each response is absorbed (R147, R148). -/
theorem test_absorption :
    let s := after .reset { (station .joined) with mpt := sixChannels.grant.grant.grant.grant }
    s.mpt.absorb = 4 ∧ (after (.memoryResponse true (Vector.replicate 8 0)) s).mpt.absorb = 3 := by decide

/-! ## Host Port and Event Queue (chapters 9 to 11) -/

/-- The ID and LINK words, the Fill index word, and an unused word (R175, R176). -/
theorem test_window_reads :
    (station .fault).windowRead 0 = 0x32400001 ∧ (station .fault).windowRead 1 = 5 ∧ extended.windowRead 16 = 7 ∧
    (station .fault).windowRead 0x46 = 0 := by decide

/-- After power-on the flag word reads POWER_UP alone; writing 1 to it clears it (R38, R161). -/
theorem test_flag_word :
    State.reset.windowRead 2 = 1 ∧ (after (.flagWrite 1) State.reset).windowRead 2 = 0 ∧
    (after (.flagWrite 0x1E) State.reset).windowRead 2 = 1 := by decide

/-- Head words by R177's table: REFUSED (17, class CLAIM 2) for talk channel 3, slot 12, station 5, cause OWNED_SEEN, in
round 300; and FAULT_ENTERED (3, class LINK 1), STUCK, with every optional field absent. -/
theorem test_head_words :
    (let r : EventRecord :=
      { kind := .refused, channel := some 3, slot := some 12, station := some 5, tag := some 0x13, detail := 1,
        stamp := 300 }
     [r.headWord 0, r.headWord 1, r.headWord 2, r.headWord 3] = [0x000F0211, 0x13050C03, 1, 0x12C]) ∧
    (let r := event .faultEntered 2
     [r.headWord 0, r.headWord 1, r.headWord 2] = [0x103, 0, 2]) := by decide

theorem test_read_only_words : after (.windowWriteIgnored 1 0xFFFFFFFF) extended = extended := by decide

/-- The queue of the flood example: 30 records, DATA masked. -/
def flooded : State :=
  { (station .joined) with
    stc := { (station .joined).stc with start := some { record with mask := { record.mask with data := false } } }
    evq := { Evq.clear with queue := List.replicate 30 (event .granted) } }

/-- HIRQ follows the queue, but for a held reset pin (R163). -/
theorem test_hirq : flooded.hirq = true ∧ extended.hirq = false ∧
    State.hirq { flooded with rstHeld := true } = false := by decide

theorem test_unknown_command : (after (.unknownCommand 13) (station .ready)).windowRead 8 = 0x000D0202 := by decide

theorem test_lost_command :
    (after (.lostCommandWrite 9)
      { (station .joined) with hpt := { Hpt.powerOn with mailbox := .busy 7 } }).hpt.flags.commandLost = true ∧
    (after (.lostCommandWrite 9)
      { (station .joined) with hpt := { Hpt.powerOn with mailbox := .busy 7 } }).hpt.mailbox = .busy 7 := by decide

/-- READ_MAP: OWNED by station 5 with tag 0x40 and silent count 3, by R177's fields (state 1, owner, tag, count). -/
theorem test_read_map :
    (after .readMap (slotState (.peer 5 0x40 3 none) .silent none .notSent)).hpt.snapshot[3] = 0x03400501 := by decide

theorem test_read_status : (after .readStatus (station .joined)).hpt.snapshot[2] = 100 ∧
    (after .readStatus (station .joined)).hpt.snapshot[1] = 0x01100106 := by decide

/-- After the six records of the flood: 32 in the queue, 2 dropped, the overflow flag set. -/
theorem test_flood :
    let s := flooded.postAll
      [event .sequenceGap, event .bufferDone, event .dropEpisode, event .sequenceGap, event .channelStarved,
       event .fillRejected]
    s.evq.queue.length = 32 ∧ s.evq.dropped = 2 ∧ s.hpt.flags.eventOverflow = true ∧
    (s.evq.queue.drop 30).map EventRecord.kind = [.sequenceGap, .dropEpisode] := by decide

/-- The pop and the GRANTED record in both orders (flood example). -/
theorem test_pop_orders :
    let s : State := { flooded with
      evq := { queue := List.replicate 32 (event .granted), dropped := 2, head := .nothing } }
    ((after .pop s).post (event .granted)).evq.dropped = 1 ∧
    (after .pop s).evq.queue.getLast?.map EventRecord.detail = some 2 ∧
    (after .pop (s.post (event .granted))).evq.queue.getLast?.map EventRecord.detail = some 3 := by decide

theorem test_resets :
    (after .powerOnReset leaving).hpt.flags.powerUp = true ∧ (after .rstNAssert leaving).rstHeld = true ∧
    (after .rstNAssert (after (.flagWrite 1) leaving)).hpt.flags.powerUp = false ∧
    (after .rstNRelease (after .rstNAssert leaving)).stc.state = .off := by decide

/-- A leave ends at the boundary that finds the queue empty: LINK_LEFT with the slots still OWNED (R30). A duplicate-id
report that waits is taken after it (R31). -/
theorem test_leave_ends :
    let s : State := { (station .leaving) with boundary := { BoundaryWork.nothing with station := true } }
    (after .stationBoundaryWork s).stc.state = .ready ∧
    (after .stationBoundaryWork s).evq.queue.map (fun r => (r.kind, r.detail)) = [(.linkLeft, 0)] ∧
    (after .stationBoundaryWork { s with
      stc := { s.stc with report := some { slot := 4, tag := 0x21 } } }).evq.queue.map
      (fun r => (r.kind, r.detail)) = [(.linkLeft, 0), (.faultEntered, 3)] := by decide

/-- The eighth boundary in LISTENING: JOINED with LINK_JOINED (R26). -/
theorem test_learned :
    let s : State := { (station .listening) with
      stc := { (station .listening).stc with learn := 7 }
      boundary := { BoundaryWork.nothing with station := true } }
    (after .stationBoundaryWork s).stc.state = .joined ∧
    (after .stationBoundaryWork s).evq.queue.map EventRecord.kind = [.linkJoined] := by decide

/-! ## The step -/

theorem test_step_idles : step State.reset = .next State.reset := rfl

theorem test_step_takes_the_front : step { State.reset with pending := [.start, .join] } =
    exec .start { State.reset with pending := [.join] } := rfl

/-- The table gives no row any bits, so no word spells a command. -/
theorem test_no_word_spells_a_command : decodeTableWord 0 0 = none ∧ State.reset.withFetchWord 8 1 = State.reset :=
  ⟨rfl, rfl⟩

/-! ## States that meet the hypotheses of the statements

One theorem a statement; where it has several clauses, one conjunct a clause, at a boundary value of its range. -/

/-- The commands are taken from these states. -/
theorem test_hyp_takes : State.reset.takes ∧ (station .ready).takes ∧ (station .listening).takes ∧ leaving.takes ∧
    (station .leaving).takes ∧ (station .fault).takes := by
  unfold State.takes; decide

/-- These states are settled, and all but the first are in a link state. -/
theorem test_hyp_settled : (station .ready).settled ∧ (station .joined).settled ∧ leaving.settled ∧
    (station .ready).inLink = false ∧ (station .joined).inLink = true ∧ leaving.inLink = true := by
  unfold State.settled; decide

theorem test_hyp_StepRunsTheFrontCommand :
    State.pending { State.reset with pending := [.pop, .join] } = .pop :: [.join] ∧ State.reset.pending = [] := by
  decide

theorem test_hyp_PowerOnAndPinResetSetEveryBlock : State.reset.rstHeld = false := by decide

theorem test_hyp_ResetCommandKeepsTheRecordAndCounters : leaving.rstHeld = false := by decide

/-- START with each field at both ends of its range, and one past each end. -/
theorem test_hyp_StartKeepsARecordInRange :
    (station .ready).stc.state ≠ .off ∧ State.reset.stc.state = .off ∧
    (let s := State.params State.reset 31 2 528 0x40
     s.takes ∧ s.hpt.params[0].toNat = (31 : StationId).val ∧ s.hpt.params[1].toNat = Shape.slots32.code ∧
      16 + 16 * Shape.slots32.slots ≤ s.hpt.params[2].toNat ∧ s.hpt.params[2].toNat ≤ 4000 ∧
      1 ≤ (s.hpt.params[3].extractLsb' 0 7).toNat ∧ (s.hpt.params[3].extractLsb' 0 7).toNat ≤ 64) ∧
    (let s := State.params State.reset 0 0 4000 1
     s.takes ∧ s.hpt.params[0].toNat = (0 : StationId).val ∧ s.hpt.params[1].toNat = Shape.slots8.code ∧
      16 + 16 * Shape.slots8.slots ≤ s.hpt.params[2].toNat ∧ s.hpt.params[2].toNat ≤ 4000 ∧
      1 ≤ (s.hpt.params[3].extractLsb' 0 7).toNat) ∧
    32 ≤ (State.params State.reset 32 0 4000 1).hpt.params[0].toNat ∧
    3 ≤ (State.params State.reset 0 3 4000 1).hpt.params[1].toNat ∧
    (State.params State.reset 0 0 143 1).hpt.params[2].toNat < 16 + 16 * Shape.slots8.slots ∧
    4000 < (State.params State.reset 0 0 4001 1).hpt.params[2].toNat ∧
    ((State.params State.reset 0 0 4000 0x80).hpt.params[3].extractLsb' 0 7).toNat = 0 ∧
    64 < ((State.params State.reset 0 0 4000 65).hpt.params[3].extractLsb' 0 7).toNat := by
  unfold State.takes; decide

theorem test_hyp_JoinAndPendingLeave : (station .ready).stc.state = .ready ∧ State.reset.stc.state ≠ .ready ∧
    (station .listening).stc.state = .listening ∧ (station .leaving).stc.state = .leaving := by decide

/-- A CLAIM off the line, one SENT-WON, a bound channel without a request; and, in the second state,
  a CLAIM on the line
and a RELEASE. -/
theorem test_hyp_LeaveInJoinedQueuesReleases : leaving.stc.state = .joined ∧ leaving.claimsDistinct ∧
    leaving.talk[0].bound.isSome = true ∧ leaving.cle.holds 0 = false ∧
    (let s : State := { leaving with cle := {
        queue := [.new .claim 3 none 0x13, .new .release 0 (some 3) 0x44], onLine := some 3, lineEnds := none } }
     s.takes ∧ s.claimsDistinct) ∧
    leaving.boundary = .nothing ∧
    (let s : State := { leaving with boundary := { BoundaryWork.nothing with slotMap := true, station := true } }
     s.claimsDistinct ∧ s.boundary.station = true) ∧
    (let s : State := { leaving with boundary := { BoundaryWork.nothing with slotMap := true } }
     s.takes ∧ s.stc.state = .joined ∧ s.claimsDistinct ∧ s.boundary.station = false ∧
      s.boundary.slotMap = true) := by
  unfold State.claimsDistinct State.takes; decide

theorem test_hyp_LeaveInFaultReturnsToReady : (station .fault).stc.state = .fault ∧
    (station .fault).recordExceptInOff := by
  unfold State.recordExceptInOff; decide

/-- OPEN_TALK: each parameter one past its range, and a good set with FI 0 and with FI 31. -/
theorem test_hyp_OpenTalkArmsTheChannel :
    State.reset.stc.state = .off ∧ (station .ready).stc.state = .ready ∧
    8 ≤ (State.params (station .ready) 8 1 0 0).hpt.params[0].toNat ∧
    (State.params (station .ready) 0 0 0 0).hpt.params[1].toNat = 0 ∧
    256 ≤ (State.params (station .ready) 0 256 0 0).hpt.params[1].toNat ∧
    (State.params (station .ready) 0 1 511 0).hpt.params[2].toNat % 512 ≠ 0 ∧
    32 ≤ (State.params (station .ready) 0 1 0 32).hpt.params[3].toNat ∧
    (let s := State.params (station .ready) 7 255 512 31
     s.takes ∧ s.hpt.params[0].toNat = (7 : TalkId).val ∧ s.hpt.params[1].toNat = (0xFF : Tag).toNat ∧
      s.hpt.params[2].toNat % 512 = 0 ∧ s.hpt.params[3].toNat = (31 : RingIndex).val ∧
      s.talk[7].state = .closed ∧ s.talk[7].requests.length < 16 ∧ s.listen[7].state = .closed ∧
      s.listen[7].requests.length < 16) ∧
    (let s := State.params leaving 0 1 0 0
     s.takes ∧ s.stc.state = .joined ∧ s.hpt.params[0].toNat = (0 : TalkId).val ∧
      s.hpt.params[1].toNat = (1 : Tag).toNat ∧
      s.hpt.params[2].toNat % 512 = 0 ∧ s.hpt.params[3].toNat = (0 : RingIndex).val ∧ s.talk[0].state ≠ .closed) := by
  unfold State.takes; decide

/-- The sets above serve OPEN_LISTEN; here an open listen channel and the clause with FI 0. -/
theorem test_hyp_OpenListenWaitsForItsTag :
    (let s := State.params moving 2 255 0 0
     s.takes ∧ s.stc.state = .joined ∧ s.hpt.params[0].toNat = (2 : ListenId).val ∧
      s.hpt.params[1].toNat = (0xFF : Tag).toNat ∧ s.hpt.params[2].toNat % 512 = 0 ∧
      s.hpt.params[3].toNat = (0 : RingIndex).val ∧ s.listen[2].state ≠ .closed) ∧
    (let s := State.params moving 0 1 0 0
     s.hpt.params[0].toNat = (0 : ListenId).val ∧ s.hpt.params[1].toNat = (1 : Tag).toNat ∧
      s.hpt.params[3].toNat = (0 : RingIndex).val ∧ s.listen[0].state = .closed) := by
  unfold State.takes; decide

/-- A CLOSE for no channel, for a closed one, on the link with each kind of request, and off the link with and without
words done. -/
theorem test_hyp_CloseOfATalkChannel :
    (State.params leaving 16 0 0 0).takes ∧ 16 ≤ (State.params leaving 16 0 0 0).hpt.params[0].toNat ∧
    leaving.talk[7].state = .closed ∧
    leaving.talk[0].state ≠ .closed ∧ leaving.inLink = true ∧ leaving.cle.requestOf 0 = none ∧
    (leaving.cle.requestOf 2).map ClaimRequest.phase = some .sentWon ∧
    ((leaving.cle.requestOf 3).map ClaimRequest.phase = some .waiting ∧ leaving.cle.onLine ≠ some 3) ∧
    (let s : State := { leaving with cle := { leaving.cle with onLine := some 3 } }
     (s.cle.requestOf 3).map ClaimRequest.phase = some .waiting ∧ s.cle.onLine = some 3) ∧
    (let s : State := State.params { (station .ready) with
        talk := (Vector.replicate 8 Talk.clear).set 7
          { (talker .armed none) with
            ring := { base := 0x1000, ci := 31, fi := 0, current := some (.held (buffer 2)),
                      ahead := none, position := 1 } } } 7 0 0 0
     s.takes ∧ s.hpt.params[0].toNat = (7 : TalkId).val ∧ s.talk[7].state ≠ .closed ∧ s.inLink = false ∧
      s.talk[7].bound = none ∧ s.cle.holds 7 = false ∧ (heldOf s.talk[7].ring.current).isSome = true ∧
      0 < s.talk[7].ring.position) ∧
    (let s : State := { (station .ready) with talk := (Vector.replicate 8 Talk.clear).set 0 (talker .halted none) }
     s.talk[0].state ≠ .closed ∧ s.inLink = false ∧ s.talk[0].bound = none ∧ s.cle.holds 0 = false ∧
      heldOf s.talk[0].ring.current = none) := by
  unfold State.takes; decide

/-- A listen channel off the link that still writes, and one that does not, with words done and without. -/
def draining (requests : List RequestEntry) (position : Nat) : State :=
  State.params { (station .ready) with
    listen := (Vector.replicate 8 Listen.clear).set 0
      { (listener .waiting none) with
        ring := { base := 0x1000, ci := 0, fi := 1, current := some (.held (buffer 9)), ahead := none, position }
        requests } } 8 0 0 0

theorem test_hyp_CloseOfAListenChannel :
    (State.params moving 15 0 0 0).takes ∧
     (State.params moving 15 0 0 0).hpt.params[0].toNat = (7 : ListenId).val + 8 ∧
    moving.listen[7].state = .closed ∧
    (State.params moving 10 0 0 0).hpt.params[0].toNat = (2 : ListenId).val + 8 ∧ moving.listen[2].state ≠ .closed ∧
    moving.inLink = true ∧
    (let s := draining [{ purpose := .dataWrite, stale := false, index := 0, words := 8, ok := false,
                          event := false }] 0
     s.takes ∧ s.hpt.params[0].toNat = (0 : ListenId).val + 8 ∧ s.listen[0].state ≠ .closed ∧ s.inLink = false ∧
      s.listen[0].writing = true) ∧
    ((draining [] 1).listen[0].state ≠ .closed ∧ (draining [] 1).listen[0].writing = false ∧
      (heldOf (draining [] 1).listen[0].ring.current).isSome = true ∧ 0 < (draining [] 1).listen[0].ring.position) ∧
    ((draining [] 0).listen[0].writing = false ∧ (draining [] 0).listen[0].ring.position = 0) := by
  unfold State.takes; decide

/-- Channels that are HALTED on the link and off it. -/
def halted (st : StationState) (which : Word) : State :=
  State.params { (station st) with
    talk := (Vector.replicate 8 Talk.clear).set 7 (talker .halted none)
    listen := (Vector.replicate 8 Listen.clear).set 7 (listener .halted none) } which 0 0 0

theorem test_hyp_ResumeLeavesHalted :
    (halted .ready 16).takes ∧ 16 ≤ (halted .ready 16).hpt.params[0].toNat ∧
    (halted .ready 0).hpt.params[0].toNat = (0 : TalkId).val ∧ (halted .ready 0).talk[0].state ≠ .halted ∧
    (halted .joined 7).takes ∧ (halted .joined 7).hpt.params[0].toNat = (7 : TalkId).val ∧
    (halted .joined 7).talk[7].state = .halted ∧ (halted .joined 7).inLink = true ∧
    (halted .ready 7).inLink = false ∧ (halted .ready 7).talk[7].bound = none ∧
    (halted .ready 8).hpt.params[0].toNat = (0 : ListenId).val + 8 ∧ (halted .ready 8).listen[0].state ≠ .halted ∧
    (halted .joined 15).hpt.params[0].toNat = (7 : ListenId).val + 8 ∧
    (halted .joined 15).listen[7].state = .halted := by
  unfold State.takes; decide

/-- A full claim queue, one request a channel. -/
def fullQueue : State :=
  { leaving with cle := {
      queue := (List.finRange 8).map fun k => ClaimRequest.new .claim k none 0x44, onLine := none,
        lineEnds := none } }

theorem test_hyp_ClaimAndReleaseJoinTheQueue :
    (station .ready).stc.state ≠ .joined ∧ leaving.stc.state = .joined ∧
    8 ≤ (State.params leaving 8 0 0 0).hpt.params[0].toNat ∧
    ((State.params leaving 2 16 0 0).hpt.params[1].toNat ≠ 255 ∧ leaving.slots ≤ 16) ∧
    (State.params leaving 2 255 0 0).hpt.params[1].toNat = 255 ∧
    ((State.params leaving 2 15 0 0).hpt.params[1].toNat = (15 : Slot).val ∧ (15 : Slot).val < leaving.slots) ∧
    leaving.talk[0].state ≠ .armed ∧
    (fullQueue.takes ∧ fullQueue.talk[2].state = .armed ∧ 8 ≤ fullQueue.cle.queue.length) ∧
    (leaving.talk[2].state = .armed ∧ leaving.cle.queue.length < 8 ∧ leaving.cle.holds 2 = true) ∧
    (let s : State := { leaving with cle := { leaving.cle with queue := fullQueue.cle.queue.drop 3 } }
     s.talk[2].tag = some 0x44 ∧ s.talk[2].state = .armed ∧ s.cle.queue.length < 8 ∧ s.cle.holds 2 = false ∧
      s.talk[0].bound = some 3 ∧ s.talk[0].tag = some 0x44 ∧ s.cle.holds 0 = false) ∧
    leaving.talk[2].bound = none ∧ (fullQueue.talk[0].bound.isSome = true ∧ fullQueue.cle.holds 0 = true) ∧
    (let s : State := { leaving with cle := { leaving.cle with queue := fullQueue.cle.queue.take 1 } }
     s.talk[0].bound.isSome = true ∧ s.cle.queue.length < 8 ∧ s.cle.holds 0 = true) := by
  unfold State.takes; decide

/-- A map with each kind of entry at the ends of its counts. -/
def fullMap : State :=
  { (station .joined) with
    smap := { Smap.clear with
      entries := ((((Vector.replicate 32 Entry.free).set 0 (.own 0x44 (some 9) 1)).set 1
        (.peer 31 0xFF 7 (some 0))).set 2 (.quarantine 8)).set 15 (.quarantine 1) } }

theorem test_hyp_MapStaysInItsBounds : fullMap.mapBounded ∧ fullMap.unusedFree := by
  constructor
  · intro i
    fin_cases i <;> simp [fullMap, Entry.bounded]
  · intro i h
    have h16 : 16 ≤ i.val := h
    simp only [fullMap, Fin.getElem_fin]
    rw [Vector.getElem_set_ne, Vector.getElem_set_ne, Vector.getElem_set_ne, Vector.getElem_set_ne] <;>
      first | omega | simp

theorem test_hyp_ReadMapCopiesTheMap : fullMap.takes ∧ fullMap.mapBounded :=
  ⟨by unfold State.takes; decide, test_hyp_MapStaysInItsBounds.1⟩

theorem test_hyp_ReadStatusCopiesTheRecord : fullQueue.takes ∧ fullQueue.settled ∧ fullQueue.countsBounded ∧
    fullQueue.eventsBounded ∧ fullQueue.cle.queue.length ≤ 8 ∧ fullQueue.recordInRange := by
  refine ⟨by unfold State.takes; decide, by unfold State.settled; decide, by unfold State.countsBounded; decide,
    by unfold State.eventsBounded; decide, by decide, ?_⟩
  intro r h
  obtain rfl : record = r := Option.some.inj h
  unfold StartRecord.inRange
  decide

theorem test_hyp_UnknownAndLostCodesDoNothingElse :
    ((0 : BitVec 8) = 0 ∨ 12 < (0 : BitVec 8).toNat) ∧ ((13 : BitVec 8) = 0 ∨ 12 < (13 : BitVec 8).toNat) ∧
    (let s : State := { (station .joined) with hpt := { Hpt.powerOn with mailbox := .busy 7 } }
     s.rstHeld = false ∧ s.hpt.mailbox = .busy 7 ∧ (255 : BitVec 8) ≠ 4) := by decide

theorem test_hyp_FillIndexWritesAreJudged :
    extending.rstHeld = false ∧ (31 : RingIndex).val = (0xFFFFFFFF : Word).toNat % 32 ∧
    extending.talk[0].state = .closed ∧ extending.listen[0].state = .closed ∧
    ((6 : RingIndex).val = (6 : Word).toNat % 32 ∧ extending.talk[2].state ≠ .closed ∧
      ((6 : RingIndex) - extending.talk[2].ring.ci).val < extending.talk[2].ring.taken) ∧
    ((7 : RingIndex).val = (7 : Word).toNat % 32 ∧
      extending.talk[2].ring.taken ≤ ((7 : RingIndex) - extending.talk[2].ring.ci).val ∧
      extending.talk[2].ring.current.isSome = true ∧ extending.talk[2].ring.ahead.isSome = true) ∧
    ((21 : RingIndex).val = (21 : Word).toNat % 32 ∧ moving.listen[2].state ≠ .closed ∧
      ((21 : RingIndex) - moving.listen[2].ring.ci).val < moving.listen[2].ring.taken) ∧
    ((22 : RingIndex).val = (22 : Word).toNat % 32 ∧
      moving.listen[2].ring.taken ≤ ((22 : RingIndex) - moving.listen[2].ring.ci).val ∧
      moving.listen[2].ring.current.isSome = true ∧ moving.listen[2].ring.ahead.isSome = true) ∧
    (let t := talker .starved (some 4)
     t.state = .starved ∧ t.bound.isSome = true ∧ t.ring.ci ≠ (1 : RingIndex) ∧
      t.ring.taken ≤ ((1 : RingIndex) - t.ring.ci).val) ∧
    (let l := listener .starved (some 4)
     l.state = .starved ∧ l.bound.isSome = true ∧ l.ring.ci ≠ (1 : RingIndex) ∧
      l.ring.taken ≤ ((1 : RingIndex) - l.ring.ci).val) := by decide

theorem test_hyp_WindowWritesActOnTheirWordOnly : leaving.rstHeld = false ∧
    (moving.windowRead (BitVec.ofNat 7 (22 + 2)) = BitVec.ofNat 32 moving.listen[2].ring.fi.val ∧
      moving.listen[2].ring.fi ≠ 0) ∧
    (State.rstHeld { State.reset with rstHeld := true } = true) ∧ (1 : BitVec 7).toNat < 2 ∧
    (8 ≤ (13 : BitVec 7).toNat ∧ (13 : BitVec 7).toNat < 14) ∧ 30 ≤ (30 : BitVec 7).toNat := by decide

theorem test_hyp_PopHandsOverTheOldestRecord :
    (flooded.stc.start = some { record with mask := { record.mask with data := false } } ∧
      State.reset.stc.start = none ∧ flooded.records .bufferDone = false ∧ flooded.records .granted = true ∧
      flooded.evq.queue.length < 32 ∧
      32 ≤ (State.evq { flooded with
        evq := { queue := List.replicate 32 (event .granted), dropped := 65535, head := .nothing } }).queue.length) ∧
    (leaving.rstHeld = false ∧ leaving.evq.queue = []) ∧
    (flooded.rstHeld = false ∧ flooded.evq.queue = event .granted :: List.replicate 29 (event .granted) ∧
      flooded.evq.dropped = 0) ∧
    (let s : State := { flooded with
       evq := { queue := List.replicate 32 (event .granted), dropped := 65534, head := .nothing } }
     s.rstHeld = false ∧ s.evq.queue.length = 32 ∧ 0 < s.evq.dropped ∧ s.evq.dropped < 65535 ∧
      s.records .granted = true) ∧
    (9 ≤ (13 : BitVec 7).toNat ∧ (13 : BitVec 7).toNat ≤ 13) := by decide

/-- Every element of a shape-16 round opens by E = 4960 (R3). -/
theorem opensAt_le {s : State} {t : Nat} (hs : s.slots = 16) (h : s.opensAt t) : t ≤ 4960 := by
  rcases h with ⟨-, rfl | ⟨i, hi, rfl⟩⟩ <;> omega

/-- Recognition from E = 5440, after every element, and from 155, 5 bit times before slot 0 opens. -/
theorem test_hyp_MarkersBegunAndAbandoned_elements :
    (∀ t, (station .joined).opensAt t → t < 5440 ∨ 5440 + 15 + 1 ≤ t) ∧
    (station .joined).opensAt 160 ∧ 155 ≤ 160 ∧ 160 < 155 + 5 + 1 ∧ 5 = 160 - 155 ∧
    (station .joined).lif.lastDominant + 20 ≤ 155 ∧ (station .joined).lif.watchesFrom ≤ 155 ∧
    (station .joined).now ≤ 155 :=
  ⟨fun t h => .inl (Nat.lt_of_le_of_lt (opensAt_le rfl h) (by decide)), ⟨rfl, .inr ⟨0, by decide, rfl⟩⟩, by decide,
    by decide, by decide, by decide, by decide, by decide⟩

/-- P is 272 µs, 5440 bit times: an idle line since E = 5420, and one bit time too short; a wait up to E = 2P; and
bits with a dominant one and without. -/
theorem test_hyp_MarkersBegunAndAbandoned :
    ((∀ b ∈ [true, true], b = true) ∧ [true, false, true] = [true] ++ false :: [true]) ∧
    (let s : State := { (station .joined) with lif := { Lif.powerOn with lastDominant := 5420 } }
     s.settled ∧ s.inLink = true ∧ s.now ≤ s.period ∧ s.lif.activity = .idle ∧ s.lif.lastDominant + 20 ≤ s.period ∧
      s.now ≤ 10880 ∧ s.period ≤ 10880 ∧ 10880 ≤ 2 * s.period ∧
      s.lif.lastDominant + 20 ≤ 5440 ∧ s.lif.watchesFrom ≤ 5440 ∧ s.now ≤ 5440 ∧
      5440 + 15 + 1 ≤ 2 * s.period) ∧
    (let s : State := { (station .joined) with lif := { Lif.powerOn with lastDominant := 5421 } }
     s.settled ∧ s.inLink = true ∧ s.now ≤ s.period ∧ s.period < s.lif.lastDominant + 20) ∧
    (station .joined).now ≤ 5439 ∧ 5439 < (station .joined).period := by
  unfold State.settled; decide

theorem test_hyp_OwnMarkerOpensARound :
    (let s : State := { (station .joined) with lif := { Lif.powerOn with activity := .marker 10856 } }
     s.settled ∧ s.inLink = true ∧ s.lif.activity = .marker 10856 ∧ s.now ≤ 10856 + 24 ∧
      10856 + 24 ≤ 2 * s.period) := by
  unfold State.settled; decide

/-- A marker at P/2 and one bit time earlier, one with a bad check, one of another shape with and without the strike,
and the first of all. The one just before P/2 comes after the slots, which end at 160 + 16 × 320 = 5280,
  only in a round
whose period is longer, here 600 µs. -/
theorem test_hyp_HeardMarkersAreJudged_elements :
    (∀ began, 4960 < began → ∀ t, State.opensAt { (station .joined) with
        stc := { (station .joined).stc with start := some { record with period := 600 } } } t →
      t < began ∨ began + 24 ≤ t) ∧
    (∀ t, ¬ State.opensAt { (station .listening) with rtm := { Rtm.stopped with elapsed := some 0 } } t) ∧
    ((station .joined).opensAt 80 ∧ 60 ≤ 80 ∧ 80 < 60 + 24 ∧ (station .joined).now ≤ 80 ∧ 20 = 80 - 60) :=
  ⟨fun _ hb t h => .inl (Nat.lt_of_le_of_lt (opensAt_le (t := t) rfl h) hb), fun _ h => absurd h.1 (by decide),
    ⟨rfl, .inl rfl⟩, by decide, by decide, by decide, by decide⟩

theorem test_hyp_HeardMarkersAreJudged :
    ((station .joined).settled ∧ (station .joined).lif.activity = .idle ∧ 5300 + 24 ≤ 2 * (station .joined).period ∧
      (0xFFFFFF : BitVec 24).extractLsb' 8 16 ≠ 0x16CF#16 ∧ 19 < (station .joined).lif.lastDominant + 20 ∧
      5299 < Lif.watchesFrom { Lif.powerOn with watchesFrom := 5300 }) ∧
    (let s : State := { (station .joined) with
        stc := { (station .joined).stc with start := some { record with period := 600 } } }
     s.settled ∧ s.inLink = true ∧ s.lif.activity = .idle ∧ s.lif.lastDominant + 20 ≤ 5999 ∧ s.now ≤ 5999 + 24 ∧
      s.lif.watchesFrom ≤ 5999 ∧ 6000 + 24 ≤ 2 * s.period ∧
      (ownMarker .slots16).extractLsb' 8 16 = 0x16CF#16 ∧ markerGood (ownMarker .slots16) = true ∧
      ((ownMarker .slots16).extractLsb' 6 2).toNat = s.shapeCode ∧ s.rtm.lastMarker.isSome = true ∧
      2 * 5999 < s.period ∧ s.period ≤ 2 * 6000 ∧
      (ownMarker .slots16 ^^^ 1).extractLsb' 8 16 = 0x16CF#16 ∧ markerGood (ownMarker .slots16 ^^^ 1) = false ∧
      (ownMarker .slots8).extractLsb' 8 16 = 0x16CF#16 ∧ markerGood (ownMarker .slots8) = true ∧
      ((ownMarker .slots8).extractLsb' 6 2).toNat ≠ s.shapeCode ∧ s.rtm.strike = false) ∧
    (let s : State := { (station .joined) with rtm := { (station .joined).rtm with strike := true } }
     s.settled ∧ s.rtm.strike = true ∧ s.lif.lastDominant + 20 ≤ 5300 ∧ s.lif.watchesFrom ≤ 5300) ∧
    (let s : State := { (station .listening) with rtm := { Rtm.stopped with elapsed := some 0 } }
     s.settled ∧ s.rtm.lastMarker = none ∧ s.lif.watchesFrom ≤ 20 ∧ s.lif.lastDominant + 20 ≤ 20) ∧
    (let s : State := { (station .joined) with
        stc := { (station .joined).stc with start := some { record with period := 600 } }
        lif := { Lif.powerOn with activity := .marker 12000 } }
     s.settled ∧ s.inLink = true ∧ s.lif.activity = .marker 12000 ∧ s.now ≤ 12000 + 24 ∧
      12000 + 24 ≤ 2 * s.period ∧ s.period ≤ 2 * 12000 ∧ s.rtm.lastMarker.isSome = true ∧ s.rtm.strike = false) ∧
    (let s : State := { (station .joined) with
        stc := { (station .joined).stc with start := some { record with period := 600 } }
        lif := { Lif.powerOn with activity := .marker 5999 }, rtm := { (station .joined).rtm with strike := true } }
     s.settled ∧ s.lif.activity = .marker 5999 ∧ 2 * 5999 < s.period ∧ s.rtm.strike = true) := by
  unfold State.settled; decide

/-- The claim queue that FAULT ends: two requests, with places for their records, and at the last place for them; CLAIM
chosen by the mask and not. -/
theorem test_hyp_withdrawsAll :
    (leaving.cle.queue.length = 2 ∧ leaving.evq.queue.length + leaving.cle.queue.length < 32 ∧
      leaving.records .withdrawn = true) ∧
    (let s : State := { leaving with evq := { Evq.clear with queue := List.replicate 29 (event .granted) } }
     s.settled ∧ s.inLink = true ∧ s.evq.queue.length + s.cle.queue.length < 32) ∧
    (let s : State := { leaving with
       stc := { leaving.stc with start := some { record with mask := { record.mask with claim := false } } } }
     s.settled ∧ s.inLink = true ∧ s.records .withdrawn = false) ∧
    (let s : State := { leaving with
       lif := { Lif.powerOn with activity := .marker 5440 }, rtm := { leaving.rtm with strike := true } }
     s.settled ∧ s.inLink = true ∧ s.lif.activity = .marker 5440 ∧ s.now ≤ 5440 + 24 ∧
      5440 + 24 ≤ 2 * s.period ∧ markerGood (ownMarker .slots8) = true ∧
      ((ownMarker .slots8).extractLsb' 6 2).toNat ≠ s.shapeCode ∧ s.evq.queue.length < 32) := by
  unfold State.settled; decide

theorem test_hyp_FaultsStopTheStation :
    (leaving.settled ∧ leaving.inLink = true ∧ leaving.evq.queue.length < 32 ∧ leaving.stc.report = none) ∧
    ((station .ready).settled ∧ (station .ready).inLink = false) ∧
    (let s : State := { leaving with stc := { leaving.stc with report := some { slot := 0, tag := 1 } } }
     s.stc.report = some { slot := 0, tag := 1 } ∧ s.inLink = true ∧ s.evq.queue.length < 32) ∧
    (let s : State := { (station .ready) with
        stc := { (station .ready).stc with report := some { slot := 31, tag := 255 } } }
     s.stc.report = some { slot := 31, tag := 255 } ∧ s.stc.state = .ready ∧ s.evq.queue.length < 32) ∧
    State.reset.stc.state = .off ∧ (station .fault).stc.state = .fault := by
  unfold State.settled; decide

/-- A queue with each kind of request in a map with no FREE slot. -/
def walking : State :=
  { leaving with
    cle := {
      queue := [{ ClaimRequest.new .claim 2 (some 12) 0x12 with phase := .sentWon }, .new .claim 3 (some 0) 0x13,
                .new .claim 4 none 0x14, .new .release 0 (some 3) 0x44]
      onLine := none, lineEnds := none }
    smap := { Smap.clear with entries := Vector.replicate 32 (Entry.peer 9 0x30 0 none) } }

/-- A walk past a SENT-WON request, a CLAIM that ends REFUSED and one that ends NO_SLOT, to a RELEASE. -/
theorem test_hyp_OldestSendableRequestIsSent_walk :
    walking.passesOver { ClaimRequest.new .claim 2 (some 12) 0x12 with phase := .sentWon } ∧
    walking.endsUnsent (.new .claim 3 (some 0) 0x13)
      (event .refused 1 (channel := some 3) (slot := some 0) (station := some 9) (tag := some 0x13)) ∧
    walking.endsUnsent (.new .claim 4 none 0x14) (event .noSlot 0 (channel := some 4) (tag := some 0x14)) ∧
    walking.maySend (.new .release 0 (some 3) 0x44) 3 :=
  ⟨.inl rfl, ⟨rfl, rfl, rfl, rfl, .inl ⟨0, rfl, by decide, rfl⟩⟩, ⟨rfl, rfl, rfl, rfl, .inr ⟨rfl, by decide, rfl⟩⟩,
    ⟨rfl, .inl ⟨rfl, rfl⟩⟩⟩

/-- CLAIMs for slot 15, alone FREE, and for ANY; one passed over with the band DEGRADED. -/
theorem test_hyp_OldestSendableRequestIsSent_claim :
    (let s : State := { leaving with
        smap := { Smap.clear with
          entries := (Vector.replicate 32 (Entry.peer 9 0x30 0 none)).set 15 Entry.free } }
     s.maySend (.new .claim 3 none 0x13) 15 ∧ s.maySend (.new .claim 3 (some 15) 0x13) 15) ∧
    State.passesOver { leaving with stc := { leaving.stc with band := .degraded } } (.new .claim 3 none 0x13) :=
  ⟨⟨⟨rfl, .inr ⟨rfl, rfl, rfl, by decide, by decide, .inr ⟨rfl, by decide⟩⟩⟩,
    ⟨rfl, .inr ⟨rfl, rfl, rfl, by decide, by decide, .inl rfl⟩⟩⟩, .inr ⟨rfl, .inr rfl⟩⟩

theorem test_hyp_OldestSendableRequestIsSent :
    (walking.settled ∧ walking.stc.state = .joined ∧ walking.rtm.lastMarker.isSome = true ∧
      walking.lif.activity = .idle ∧ walking.lif.opened = 0 ∧ walking.now ≤ 80 ∧ walking.cle.queue.length = 4) ∧
    ((station .listening).settled ∧ (station .listening).stc.state = .listening ∧
      (station .listening).rtm.lastMarker.isSome = true ∧ (station .listening).lif.activity = .idle ∧
      (station .listening).lif.opened = 0 ∧ (station .listening).now ≤ 80) ∧ (station .leaving).cle.queue = [] := by
  unfold State.settled; decide

/-- A message on the line that wins, that loses with attempts left, and that loses at the limit. -/
def onTheLine (attempts : Nat) : State :=
  { (station .joined) with
    lif := { Lif.powerOn with
      activity := .window (some { kind := .claim, slot := 5, station := 6, tag := 0x13 }), opened := 1 }
    cle := {
      queue := [{ ClaimRequest.new .claim 3 none 0x13 with attempts, sentSlot := some 5 }]
      onLine := some 3, lineEnds := none } }

theorem test_hyp_WindowResultReachesTheRequest :
    (onTheLine 0).cle.onLine = some 3 ∧ ((onTheLine 0).cle.requestOf 3).map ClaimRequest.attempts = some 0 ∧
    (onTheLine 0).cle.lineEnds = none ∧ (onTheLine 0).now ≤ 108 ∧
    (let m : ClaimMessage := { kind := .claim, slot := 5, station := 6, tag := 0x13 }
     (onTheLine 0).lif.activity = .window (some m) ∧ (0#1 ++ m.bits).extractLsb' 0 27 = m.bits ∧
      (0 : BitVec 28).extractLsb' 0 27 ≠ m.bits) ∧
    0 + 1 < (onTheLine 0).retryLimit ∧ (onTheLine 1).retryLimit ≤ 1 + 1 ∧
    (let s : State := { onTheLine 1 with cle := { (onTheLine 1).cle with lineEnds := some .leave } }
     s.cle.lineEnds = some .leave ∧ s.cle.onLine = some 3 ∧
      (s.cle.requestOf 3).map ClaimRequest.attempts = some 1 ∧ s.now ≤ 108) := by decide

theorem test_hyp_WindowReadWithoutSending :
    (let s : State := { (station .joined) with lif := { Lif.powerOn with activity := .window none, opened := 1 } }
     s.cle.onLine = none ∧ s.now ≤ 81 ∧ s.inLink = true) ∧
    (0x8000000 : BitVec 28).getLsbD 27 = true ∧
    ((0 : BitVec 28).getLsbD 27 = false ∧ messageGood ((0 : BitVec 28).extractLsb' 0 27) = true) ∧
    ((1 : BitVec 28).getLsbD 27 = false ∧ messageGood ((1 : BitVec 28).extractLsb' 0 27) = false) := by decide

/-- Slot 15, the last of the shape, opens with channel 2 bound to it. -/
def lastSlot (t : Talk) : State :=
  { (station .joined) with
    lif := { Lif.powerOn with opened := 16 }
    talk := (Vector.replicate 8 Talk.clear).set 2 { t with bound := some 15, sequence := some 15 } }

theorem test_hyp_OwnSlotSendsOneBurst :
    (let s := lastSlot extending.talk[2]
     s.stc.state = .joined ∧ s.rtm.lastMarker.isSome = true ∧ s.lif.activity = .idle ∧
      s.lif.opened = (15 : Slot).val + 1 ∧ (15 : Slot).val < s.slots ∧ s.now ≤ 160 + 320 * 15 ∧
      s.talk[2].bound = some 15 ∧ (∀ j : TalkId, j < 2 → s.talk[j].bound ≠ some 15) ∧ s.talk[2].tag = some 0x44 ∧
      s.talk[2].sequence = some 15 ∧ s.talk[2].state = .running ∧ s.talk[2].endWait = false ∧
      s.talk[2].staging ≠ [] ∧ heldOf s.talk[2].ring.current = some (buffer 20) ∧ (buffer 20).final = false) ∧
    heldOf (some (.held (buffer 20 true))) = some (buffer 20 true) ∧ (buffer 20 true).final = true ∧
    ((lastSlot { extending.talk[2] with endWait := true }).talk[2].endWait = true) ∧
    ((lastSlot (talker .halted none)).talk[2].state = .halted) ∧
    ((lastSlot (talker .running none)).talk[2].state = .running ∧
      (lastSlot (talker .running none)).talk[2].endWait = false ∧
      (lastSlot (talker .running none)).talk[2].staging = []) := by decide

theorem test_hyp_OtherSlotsAreReceived :
    (let s : State := { (station .joined) with lif := { Lif.powerOn with opened := 16 } }
     s.inLink = true ∧ s.rtm.lastMarker.isSome = true ∧ s.lif.activity = .idle ∧ s.lif.opened = (15 : Slot).val + 1 ∧
      (15 : Slot).val < s.slots ∧ s.now ≤ 160 + 320 * 15 ∧ ∀ k : TalkId, s.talk[k].bound ≠ some 15) ∧
    (let s : State := { (station .listening) with lif := { Lif.powerOn with opened := 1 } }
     s.inLink = true ∧ s.stc.state = .listening ∧ s.lif.opened = (0 : Slot).val + 1) := by decide

/-- A report that leaves the buffer short of its length by one word, and one that completes an END buffer; and with an
ahead in each condition, and with the last words the channel has. -/
def reporting (position : Nat) (final : Bool) : State :=
  { extending with
    talk := extending.talk.set 2 { extending.talk[2] with
      onLine := some (staged 5 [1, 2, 3, 4])
      ring := { extending.talk[2].ring with
        current := some (.held (buffer 20 final)), ahead := none, position } } }

/-- The same channel with nothing but a FILL on the line and no descriptor taken. -/
def filling (st : TalkState) : State :=
  { extending with
    talk := extending.talk.set 2 { extending.talk[2] with
      state := st, onLine := some [], staging := []
      ring := { base := 0x1000, ci := 31, fi := 31, current := none, ahead := none, position := 0 } } }

/-- What a report meets as the current completes: 4 words sent, the first of them the current's last, with an ahead. -/
def completing (ahead : Option Taken) : State :=
  { extending with
    talk := extending.talk.set 2 { extending.talk[2] with
      onLine := some (staged 5 [1] ++ staged 6 [2, 3, 4]), staging := staged 5 [1] ++ staged 6 [2, 3, 4]
      ring := { extending.talk[2].ring with ahead, position := 19 } } }

/-- The burst on the line of channel 2. -/
def sentBurst : Burst := { owner := 6, tag := 0x44, kind := .data, sequence := 4, words := List.replicate 8 7 }

theorem test_hyp_SentBurstsAreCountedAndObserved_fill :
    ((filling .halted).burstOut 4 sentBurst 2 [] ∧ (filling .halted).talk[2].heldHalts = [] ∧
      (filling .halted).talk[2].ring.current = none ∧
      (filling .halted).talk[2].ring.ahead = none ∧ (filling .halted).talk[2].state = .halted) ∧
    ((filling .starved).burstOut 4 sentBurst 2 [] ∧ (filling .starved).talk[2].state = .starved ∧
      (filling .starved).talk[2].ring.ci = (filling .starved).talk[2].ring.fi ∧
      (filling .starved).talk[2].staging = [] ∧ (filling .starved).talk[2].endWait = false) ∧
    (let s : State := { (filling .running) with
        talk := (filling .running).talk.set 2 { (filling .running).talk[2] with
          ring := { (filling .running).talk[2].ring with fi := 0 } } }
     s.burstOut 4 sentBurst 2 [] ∧ s.talk[2].state = .running ∧ s.talk[2].ring.ci ≠ s.talk[2].ring.fi) := by
  unfold State.burstOut; decide

theorem test_hyp_SentBurstsAreCountedAndObserved_completion :
    ((completing (some (.held (buffer 4)))).burstOut 4 sentBurst 2 (staged 5 [1] ++ staged 6 [2, 3, 4]) ∧
      (completing none).burstOut 4 sentBurst 2 (staged 5 [1] ++ staged 6 [2, 3, 4])) ∧
    (19 + (staged 5 [1] ++ staged 6 [2, 3, 4]).length = (buffer 20).length + 3 ∧ 3 < (buffer 4).length ∧
      (completing (some (.held (buffer 4)))).talk[2].ring.current = some (.held (buffer 20)) ∧
      (completing (some (.bad (buffer 0)))).talk[2].ring.ahead = some (.bad (buffer 0)) ∧
      (completing (some .fetchError)).talk[2].ring.ahead = some .fetchError ∧
      (completing (some (.readError (buffer 4)))).talk[2].ring.ahead = some (.readError (buffer 4))) := by
  unfold State.burstOut; decide

theorem test_hyp_SentBurstsAreCountedAndObserved_starved :
    (let s : State := { completing none with
        talk := (completing none).talk.set 2 { (completing none).talk[2] with
          ring := { (completing none).talk[2].ring with fi := 6 } } }
     s.talk[2].ring.ahead = none ∧ s.talk[2].ring.ci + 1 = s.talk[2].ring.fi ∧ s.talk[2].state = .running ∧
      s.talk[2].staging.length ≤ 4 ∧ s.talk[2].endWait = false ∧ (buffer 20).final = false ∧
      s.records .channelStarved = true ∧ s.evq.queue.length < 32) := by decide

/-- A held halt after a report that leaves the current unfinished, that completes it without an ahead and with one, and
with no descriptor, a bad one and one whose fetch failed. -/
theorem test_hyp_SentBurstsAreCountedAndObserved_held :
    (let s : State := { (reporting 15 false) with
        talk := (reporting 15 false).talk.set 2 { (reporting 15 false).talk[2] with
          heldHalts := [.dataFailed, .writebackFailed 4] } }
     s.burstOut 4 sentBurst 2 (staged 5 [1, 2, 3, 4]) ∧ s.talk[2].heldHalts = .dataFailed :: [.writebackFailed 4] ∧
      s.talk[2].state = .running ∧ s.talk[2].ring.current = some (.held (buffer 20)) ∧
      s.talk[2].ring.position + 4 < (buffer 20).length) ∧
    ((reporting 16 false).talk[2].ring.position + 4 = (buffer 20).length ∧
      (reporting 16 false).talk[2].ring.ahead = none) ∧
    ((completing (some (.held (buffer 4)))).talk[2].ring.position + 4 = (buffer 20).length + 3 ∧
      (completing (some (.held (buffer 4)))).talk[2].ring.ahead = some (.held (buffer 4)) ∧ 3 < (buffer 4).length) ∧
    ((filling .starved).talk[2].ring.current = none ∧ (filling .starved).talk[2].state = .starved) ∧
    (let failed (c : Taken) (h : HaltReason) : State := { (filling .running) with
        talk := (filling .running).talk.set 2 { (filling .running).talk[2] with
          heldHalts := [h], ring := { (filling .running).talk[2].ring with fi := 0, current := some c } } }
     (failed (.bad (buffer 0)) .badDescriptor).burstOut 4 sentBurst 2 [] ∧
      (failed (.bad (buffer 0)) .badDescriptor).talk[2].ring.current = some (.bad (buffer 0)) ∧
      (failed .fetchError .fetchFailed).burstOut 4 sentBurst 2 [] ∧
      (failed .fetchError .fetchFailed).talk[2].ring.current = some .fetchError) := by
  unfold State.burstOut; decide

/-- Readbacks of a burst of two words: one that agrees, one with a word changed in payload bits alone, which forms no
burst; one that differs in its owner with its own good check; and one of count 1 whose check follows its word. -/
theorem test_hyp_SentBurstsAreCountedAndObserved_readback :
    let sent : Burst := { owner := 6, tag := 0x44, kind := .data, sequence := 4, words := [7, 8] }
    let other : Burst := { sent with owner := 5 }
    let shorter : Burst := { sent with words := [7] }
    let changed : LineBurst := { sent.line with payload := sent.line.payload.set 1 9 }
    let cut : LineBurst := { shorter.line with payload := #v[7, shorter.line.check ++ 0#16, 0, 0, 0, 0, 0, 0], check := 0 }
    sent.line.payload.toList.take 2 = sent.words ∧
    (changed.header = sent.line.header ∧ changed.check = sent.line.check ∧
      changed.payload.toList.take 2 ≠ sent.words ∧ readbackBurst sent changed = none) ∧
    (other.line.header ≠ sent.line.header ∧ readbackBurst sent other.line = some other) ∧
    (cut.header.extractLsb' 4 4).toNat < sent.words.length ∧ readbackBurst sent cut = some shorter := by decide

theorem test_hyp_SentBurstsAreCountedAndObserved :
    (let s := reporting 15 false
     let sent : Burst := { owner := 6, tag := 0x44, kind := .data, sequence := 4, words := List.replicate 8 7 }
     s.burstOut 4 sent 2 (staged 5 [1, 2, 3, 4]) ∧ s.talk[2].heldHalts = [] ∧
      s.talk[2].ring.current = some (.held (buffer 20)) ∧ 15 + 4 < (buffer 20).length) ∧
    ((reporting 16 true).talk[2].ring.position + 4 = (buffer 20 true).length ∧
      (reporting 16 true).talk[2].ring.ahead = none ∧ (reporting 16 true).talk[2].closeTaken = false ∧
      (reporting 16 true).stc.state = .joined ∧ (reporting 16 true).cle.holds 2 = false) := by
  unfold State.burstOut; decide

/-- A deposit of 8 words, so that a burst of 8 just fits, and one of 9, so that it does not. -/
def depositing (n : Nat) : Listen :=
  { moving.listen[2] with waiting := List.replicate n { word := 0, sequence := 8 } }

theorem test_hyp_ReceivedBurstsReachTheMapAndTheListeners :
    moving.lif.activity = .receiving 11 ∧ moving.inLink = true ∧ moving.now ≤ 199 + 320 * 11 ∧
    LineBurst.valid { header := 0, payload := Vector.replicate 8 0, check := 0 } = none ∧
    (streamed 9).line.valid = some (streamed 9) ∧ moving.listen[2].bound = some 11 ∧
    moving.listen[2].tag = some (streamed 9).tag ∧ (streamed 9).kind = .data ∧ (streamed 9).words ≠ [] ∧
    moving.listen[0].bound ≠ some 11 ∧
    ((depositing 8).state = .receiving ∧
      (depositing 8).inWrite.length + (depositing 8).waiting.length + (streamed 9).words.length ≤ 16) ∧
    16 < (depositing 9).inWrite.length + (depositing 9).waiting.length + (streamed 9).words.length ∧
    (listener .starved (some 11)).state = .starved := by decide

theorem test_hyp_SequenceIsChecked :
    moving.listen[2].bound = some 11 ∧ moving.listen[2].tag = some (streamed 8).tag ∧
    moving.listen[2].state = .receiving ∧ moving.listen[2].expected = some 9 ∧
    (9 : BitVec 4) ≠ (streamed 8).sequence ∧
    (streamed 9).sequence = 9 ∧ (listener .starved (some 11)).state = .starved ∧
    (Burst.kind { streamed 9 with kind := .fill, words := [] }) = .fill := by decide

/-- A clash in slots 3 and 15, the lower of which is reported; and no clash. -/
theorem test_hyp_SlotMapWorkScansThenSettles :
    (station .joined).boundary.slotMap = false ∧
    (let s : State := { (station .joined) with
        boundary := { BoundaryWork.nothing with slotMap := true }
        smap := { Smap.clear with
          observations := ((Vector.replicate 32 (none : Option Observation)).set 15 (some (.valid 6 0x30))).set 3
            (some (.valid 6 0x31)) } }
     s.boundary.slotMap = true ∧ (3 : Slot).val < s.slots ∧ s.smap.observations[3] = some (.valid s.selfId 0x31) ∧
      (∀ j : Slot, j < 3 → s.smap.observations[j] = none)) ∧
    (let s : State := { (station .joined) with boundary := { BoundaryWork.nothing with slotMap := true } }
     s.boundary.slotMap = true ∧ ∀ j : Slot, s.smap.observations[j] = none) := by decide

theorem test_hyp_EvidenceChangesTheEntry :
    ((station .joined).smap.observations[3] = none ∧
      (slotState .free .silent none .notSent).smap.observations[3] = some .silent ∧
      (slotState .free .bad none .notSent).smap.observations[3] = some .bad ∧
      (slotState .free (.valid 5 0x40) none .notSent).smap.observations[3] = some (.valid 5 0x40) ∧
      (slotState (.own 1 none 0) (.sentMatch 1) none .notSent).smap.observations[3] = some (.sentMatch 1) ∧
      (slotState (.own 1 none 0) (.sentMismatch none) none .notSent).smap.observations[3] =
        some (.sentMismatch none)) ∧
    (let s := slotState .free (.valid 5 0x40) none .notSent
     s.evidence 3 = some (5, 0x40) ∧ s.smap.entries[3] = .free) ∧
    (slotState (.quarantine 1) (.valid 5 0x40) none .notSent).smap.entries[3] = .quarantine 1 ∧
    (slotState (.peer 5 0x21 7 none) (.valid 5 0x40) none .notSent).smap.entries[3] = .peer 5 0x21 7 none ∧
    ((slotState (.peer 2 0x21 6 (some 5)) (.valid 5 0x40) none .notSent).smap.entries[3] = .peer 2 0x21 6 (some 5) ∧
      (5 : StationId) ≠ (station .joined).selfId) ∧
    ((slotState (.peer 2 0x21 6 none) (.valid 5 0x40) none .notSent).smap.entries[3] = .peer 2 0x21 6 none ∧
      (slotState (.peer 2 0x21 7 none) (.valid 5 0x40) none .notSent).smap.entries[3] = .peer 2 0x21 7 none) ∧
    (slotState (.own 0x44 none 1) (.sentMatch 0x44) none .notSent).evidence 3 = some (6, 0x44) ∧
    ((slotState (.own 0x44 none 1) (.sentMismatch (some (5, 0x40))) none .notSent).evidence 3 = some (5, 0x40) ∧
      (slotState (.own 0x44 (some 5) 1) (.sentMismatch (some (5, 0x40))) none .notSent).smap.entries[3] =
        .own 0x44 (some 5) 1) := by decide

theorem test_hyp_SilenceAndMonitorChangeTheEntry :
    (let s := slotState (.peer 2 0x21 7 (some 5)) .bad none .notSent
     s.smap.entries[3] = .peer 2 0x21 7 (some 5) ∧ s.evidence 3 = none) ∧
    (slotState (.peer 2 0x21 6 none) (.valid 5 0x40) none .notSent).evidence 3 ≠ none ∧
    (let s := slotState (.own 0x44 (some 5) 1) (.sentMismatch none) none .notSent
     s.smap.entries[3] = .own 0x44 (some 5) 1 ∧ s.evidence 3 = none ∧
      s.smap.observations[3] = some (.sentMismatch none)) ∧
    (slotState (.own 0x44 none 0) (.sentMatch 0x44) none .notSent).smap.observations[3] = some (.sentMatch 0x44) ∧
    (slotState (.own 0x44 none 0) (.sentMismatch none) none .notSent).smap.entries[3] = .own 0x44 none 0 ∧
    (slotState (.own 0x44 none 1) .silent none .notSent).smap.observations[3] = some .silent := by decide

/-- A won CLAIM with its request and channel,
  the channel closing or not; a peer's CLAIM and RELEASE; an own RELEASE. -/
def granting (closing : Bool) : State :=
  { (slotState .free .silent (some { kind := .claim, slot := 3, station := 6, tag := 0x44 }) .won) with
    cle := {
      queue := [{ ClaimRequest.new .claim 2 (some 3) 0x44 with sentSlot := some 3, phase := .sentWon }]
      onLine := none, lineEnds := none }
    talk := (Vector.replicate 8 Talk.clear).set 2 { (talker .armed none) with closeTaken := closing } }

theorem test_hyp_ClaimMessageChangesTheEntry :
    ((granting false).smap.message = some { kind := .claim, slot := 3, station := (granting false).selfId,
                                            tag := 0x44 } ∧
      (granting false).smap.entries[3] = .free ∧ (granting false).evidence 3 = none ∧
      (granting false).smap.part = .won ∧ (granting false).talk[2].closeTaken = false ∧
      (granting false).talk[2].bound = none ∧
      (granting false).talk[2].state = .armed ∧ (granting false).talk[2].endWait = false ∧
      (∀ r ∈ (granting false).cle.queue, r.kind = .claim ∧ r.phase = .sentWon ∧ r.channel = 2)) ∧
    (granting true).talk[2].closeTaken = true ∧
    ((slotState .free .silent (some { kind := .claim, slot := 3, station := 6, tag := 1 }) .lost).smap.part ≠ .won) ∧
    ((slotState (.quarantine 1) .silent (some { kind := .claim, slot := 3, station := 9, tag := 1 })
      .notSent).smap.entries[3] ≠ .free) ∧
    ((9 : StationId) ≠ (station .joined).selfId) ∧
    ((slotState (.peer 9 0x30 0 none) .silent (some { kind := .release, slot := 3, station := 9, tag := 0 })
      .notSent).smap.entries[3] = .peer 9 0x30 0 none) ∧
    (let s : State := { (slotState (.own 0x44 none 0) .silent
        (some { kind := .release, slot := 3, station := 6, tag := 0 }) .won) with
        talk := (Vector.replicate 8 Talk.clear).set 7 (talker .running (some 3)) }
     s.smap.entries[3] = .own 0x44 none 0 ∧ s.talk[7].bound = some 3 ∧
      ∀ j : TalkId, j ≠ 7 → s.talk[j].bound ≠ some 3) := by decide

theorem test_hyp_AbandonAndQuarantineChangeTheEntry :
    (let s : State := { (station .joined) with
        smap := { Smap.clear with
          entries := (Vector.replicate 32 Entry.free).set 3 (.own 0x44 none 0), abandon := [3] }
        talk := (Vector.replicate 8 Talk.clear).set 0 (talker .running (some 3)) }
     3 ∈ s.smap.abandon ∧ s.smap.entries[3] = .own 0x44 none 0 ∧ s.talk[0].bound = some 3 ∧
      (∀ j : TalkId, j ≠ 0 → s.talk[j].bound ≠ some 3) ∧ (4 : Slot) ∉ s.smap.abandon) ∧
    (let s := slotState (.quarantine 1) .silent none .notSent
     s.smap.entries[3] = .quarantine 1 ∧ s.evidence 3 = none) ∧
    (let s := slotState (.own 0x44 none 1) (.sentMismatch none) none .notSent
     s.smap.entries[3] = .own 0x44 none 1 ∧ s.smap.observations[3] = some (.sentMismatch none)) := by decide

/-- An entry put into QUARANTINE by each of steps 3, 4 and 5: a second mismatch in a slot whose readback names a station,
the won CLAIM of a closing channel, and an abandon. -/
theorem test_hyp_AbandonAndQuarantineChangeTheEntry_here :
    (let s := slotState (.own 0x44 none 1) (.sentMismatch (some (9, 0x30))) none .notSent
     ((s.evidenceStep 3).silenceStep 3).smap.entries[3] = .own 0x44 (some 9) 1 ∧
      s.smap.observations[3] = some (.sentMismatch (some (9, 0x30)))) ∧
    (let s : State := { (slotState (.own 0x44 none 0) (.sentMatch 0x44) none .notSent) with
       smap := { (slotState (.own 0x44 none 0) (.sentMatch 0x44) none .notSent).smap with abandon := [3] } }
     ((((s.evidenceStep 3).silenceStep 3).ownStep 3).claimStep 3).smap.entries[3] = .own 0x44 none 0 ∧
      3 ∈ s.smap.abandon ∧ s.smap.observations[3] = some (.sentMatch 0x44) ∧ s.smap.message = none) ∧
    (let s := granting true
     s.smap.message = some { kind := .claim, slot := 3, station := s.selfId, tag := 0x44 } ∧ s.smap.part = .won ∧
      s.smap.entries[3] = .free ∧ s.evidence 3 = none ∧
      { ClaimRequest.new .claim 2 (some 3) 0x44 with sentSlot := some 3, phase := .sentWon } ∈ s.cle.queue ∧
      (∀ q ∈ s.cle.queue, q.phase = .sentWon → q.channel = 2) ∧ s.talk[2].closeTaken = true) := by decide

/-- A talk channel at each request the rules can call for: none at a full list, the current's fetch, a read that just
fits, the ahead's fetch with 16 words unread; and one for which none is called for. -/
theorem test_hyp_LosingTheSlotRewinds_requests :
    (let e : RequestEntry :=
       { purpose := .writeback, stale := false, index := 0, words := 2, ok := true, event := false }
     let t : Talk := { (talker .armed none) with requests := List.replicate 16 e }
     ¬ t.mayAsk) ∧
    (let t : Talk := { (talker .armed none) with
       ring := { base := 0, ci := 31, fi := 0, current := none, ahead := none, position := 0 } }
     t.mayAsk ∧ t.callsCurrent) ∧
    (let t : Talk := { (talker .running (some 9)) with
       ring := { base := 0, ci := 5, fi := 7, current := some (.held (buffer 20)), ahead := none, position := 0 }
       staging := staged 5 (List.replicate 8 1), readPoint := some (5, 8) }
     t.mayAsk ∧ ¬ t.callsCurrent ∧ t.callsRead (buffer 20) 5 8 8) ∧
    (let t : Talk := { (talker .running (some 9)) with
       ring := { base := 0, ci := 5, fi := 7, current := some (.held (buffer 20)), ahead := none, position := 0 }
       staging := staged 5 (List.replicate 9 1), readPoint := some (5, 4) }
     t.mayAsk ∧ ¬ t.callsCurrent ∧ (∀ d index offset n, ¬ t.callsRead d index offset n) ∧ t.callsAhead) ∧
    (let t := talker .armed none
     t.mayAsk ∧ ¬ t.callsCurrent ∧ (∀ d index offset n, ¬ t.callsRead d index offset n) ∧ ¬ t.callsAhead) := by
  refine ⟨by simp [Talk.mayAsk], by unfold Talk.mayAsk ChannelCore.callsCurrent; decide,
    by unfold Talk.mayAsk ChannelCore.callsCurrent Talk.callsRead Ring.holds; decide,
    ⟨by unfold Talk.mayAsk; decide, by unfold ChannelCore.callsCurrent; decide, ?_, buffer 20, rfl, rfl, by decide,
      by decide, ?_⟩,
    ⟨by unfold Talk.mayAsk; decide, by unfold ChannelCore.callsCurrent; decide, (by rintro _ _ _ _ ⟨h, -⟩; cases h),
      (by rintro ⟨_, h, -⟩; cases h)⟩⟩
  · rintro d index offset n ⟨hp, hh, -, hn, hr⟩
    cases hp
    rcases hh with ⟨-, h⟩ | ⟨-, h⟩
    · cases h
      rw [hn] at hr
      exact absurd hr (by decide)
    · cases h
  · intro offset h
    cases h
    decide

/-- A listen channel at a write that ends a buffer, and at the ahead's fetch with 16 words of the current uncovered. -/
theorem test_hyp_ReceivedBurstsReachTheMapAndTheListeners_requests :
    (let l : Listen := { (depositing 6) with close := .none }
     l.mayAsk ∧ ¬ l.callsCurrent ∧ l.callsWrite (buffer 10) 20 4 6) ∧
    (let l : Listen := { (depositing 0) with
       ring := { base := 0, ci := 20, fi := 22, current := some (.held (buffer 20)), ahead := none, position := 4 } }
     l.mayAsk ∧ ¬ l.callsCurrent ∧ (∀ d index offset n, ¬ l.callsWrite d index offset n) ∧ l.callsAhead) ∧
    (let l := listener .receiving (some 11)
     l.mayAsk ∧ ¬ l.callsCurrent ∧ (∀ d index offset n, ¬ l.callsWrite d index offset n) ∧ ¬ l.callsAhead) :=
  ⟨by unfold Listen.mayAsk ChannelCore.callsCurrent Listen.callsWrite Ring.holds; decide,
    ⟨by unfold Listen.mayAsk; decide, by unfold ChannelCore.callsCurrent; decide,
      fun _ _ _ _ h => h.2.2.2.1 rfl, buffer 20, rfl, rfl, by decide, by decide⟩,
    ⟨by unfold Listen.mayAsk; decide, by unfold ChannelCore.callsCurrent; decide,
      (by rintro _ _ _ _ ⟨h, -⟩; cases h), (by rintro ⟨_, h, -⟩; cases h)⟩⟩

theorem test_hyp_LosingTheSlotRewinds :
    (extending.talk[2].ring.current = some (.held (buffer 20)) ∧ extending.talk[2].ring.position < (buffer 20).length ∧
      extending.talk[2].requests.length < 16) ∧
    (talker .running (some 9)).state = .running ∧ (talker .starved (some 9)).state = .starved ∧
    (talker .halted (some 9)).state = .halted ∧
    (let t : Talk := { (talker .running (some 9)) with
        ring := { base := 0, ci := 0, fi := 1, current := some .fetching, ahead := none, position := 0 } }
     t.ring.current = some .fetching ∧ t.requests.length < 16) ∧
    (extending.talk[2].bound = some 4 ∧ ∀ j : TalkId, j ≠ 2 → extending.talk[j].bound ≠ some 4) := by decide

/-- One request at settling, in each condition of its slot. -/
def settling (r : ClaimRequest) (e : Entry) (bound : Option Slot) : State :=
  { (station .joined) with
    boundary := { BoundaryWork.nothing with claims := true }
    cle := { queue := [r], onLine := none, lineEnds := none }
    smap := { Smap.clear with entries := (Vector.replicate 32 Entry.free).set 3 e }
    talk := (Vector.replicate 8 Talk.clear).set 2 (talker .running bound) }

theorem test_hyp_ClaimSettleDecidesTheOutcome_won :
    (let r := { ClaimRequest.new .claim 2 (some 3) 0x44 with sentSlot := some 3, phase := .sentWon }
     let outcome (kind : EventKind) (detail : Nat) (station : Option StationId) : EventRecord :=
       event kind detail (channel := some 2) (slot := some 3) (station := station) (tag := some 0x44)
     (settling r (.own 0x44 none 0) (some 3)).settlesWon r (outcome .granted 0 none) ∧
      (settling r (.own 0x44 none 0) none).settlesWon r (outcome .refused 2 none) ∧
      (settling r (.quarantine 8) none).settlesWon { r with slot := none } (outcome .withdrawn 3 none) ∧
      (settling r (.peer 9 1 0 none) none).settlesWon r (outcome .refused 2 (some 9)) ∧
      (settling r .free none).settlesWon r (outcome .refused 2 none) ∧
      (settling r .free none).settlesWon { r with kind := .release } (outcome .released 0 none)) := by
  refine ⟨⟨rfl, .granted, some 3, none, 0, rfl, .inr ⟨rfl, 3, rfl, rfl, ?_⟩⟩,
    ⟨rfl, .refused, some 3, none, 2, rfl, .inr ⟨rfl, 3, rfl, rfl, ?_⟩⟩,
    ⟨rfl, .withdrawn, some 3, none, 3, rfl, .inr ⟨rfl, 3, rfl, rfl, ?_⟩⟩,
    ⟨rfl, .refused, some 3, some 9, 2, rfl, .inr ⟨rfl, 3, rfl, rfl, ?_⟩⟩,
    ⟨rfl, .refused, some 3, none, 2, rfl, .inr ⟨rfl, 3, rfl, rfl, ?_⟩⟩,
    ⟨rfl, .released, some 3, none, 0, rfl, .inl (by decide)⟩⟩
  · exact .inl (by decide)
  · exact .inr (by decide)
  · exact ⟨.inl rfl, by decide⟩
  · exact ⟨rfl, rfl, rfl⟩
  · exact ⟨rfl, rfl, rfl⟩

theorem test_hyp_ClaimSettleDecidesTheOutcome :
    (station .joined).boundary.claims = false ∧
    (let r := ClaimRequest.new .release 2 (some 3) 0x44
     (settling r .free none).settlesWaiting r
        (some (event .withdrawn 6 (channel := some 2) (slot := some 3) (tag := some 0x44))) ∧
      (settling r (.own 0x44 none 0) (some 3)).settlesWaiting r none ∧
      (settling r .free none).settlesWaiting (.new .claim 2 none 0x44) none) ∧
    (let s : State := { (settling (.new .claim 3 none 0x13) .free none) with
        cle := { queue := [.new .release 2 (some 3) 0x44, .new .claim 3 none 0x13,
                   { ClaimRequest.new .claim 4 none 0x44 with sentSlot := some 5, phase := .sentWon }],
                 onLine := none, lineEnds := none } }
     s.boundary.claims = true ∧ s.claimsDistinct ∧ s.cle.queue.length = 3) := by
  unfold State.settlesWaiting State.claimsDistinct; decide

/-- A channel at TKE's boundary work in each condition, the mailbox BUSY. -/
def boundaryTalker (t : Talk) : State :=
  { (station .joined) with
    boundary := { BoundaryWork.nothing with talk := true }
    hpt := { Hpt.powerOn with mailbox := .busy 7 }
    talk := (Vector.replicate 8 Talk.clear).set 7 t }

theorem test_hyp_TalkBoundaryWorkClosesAndResumes :
    (station .joined).boundary.talk = false ∧ (boundaryTalker Talk.clear).boundary.talk = true ∧
    (talker .running (some 3)).resumeWaits = false ∧ (talker .running (some 3)).closeTaken = false ∧
    (let t : Talk := { (talker .running (some 3)) with closeTaken := true }
     t.closeTaken = true ∧ t.bound.isSome = true ∧ t.resumeWaits = false) ∧
    (let t : Talk := { (talker .armed none) with closeTaken := true }
     (boundaryTalker t).talk[7].closeTaken = true ∧ (boundaryTalker t).talk[7].bound = none ∧
      (boundaryTalker t).talk[7].resumeWaits = false ∧ (boundaryTalker t).hpt.mailbox = .busy 7 ∧
      heldOf (boundaryTalker t).talk[7].ring.current = none ∧ (boundaryTalker t).talk[7].ring.position = 0) ∧
    (let t : Talk := { (talker .armed none) with
       closeTaken := true
       ring := { base := 0x1000, ci := 31, fi := 1, current := some (.held (buffer 20)), ahead := some .fetching,
                 position := 1 } }
     heldOf (boundaryTalker t).talk[7].ring.current = some (buffer 20) ∧
      0 < (boundaryTalker t).talk[7].ring.position) ∧
    (let t : Talk := { (talker .halted (some 3)) with resumeWaits := true }
     (boundaryTalker t).talk[7].resumeWaits = true ∧ (boundaryTalker t).talk[7].closeTaken = false ∧
      (boundaryTalker t).talk[7].state = .halted) := by decide

theorem test_hyp_ListenBoundaryWorkResolvesTheTag :
    moving.boundary.listen = false ∧
    (let s : State := { moving with
        boundary := { BoundaryWork.nothing with listen := true }
        smap := { Smap.clear with
          entries := ((Vector.replicate 32 Entry.free).set 31 (.peer 3 0x5C 0 none)).set 6 (.peer 3 0x5C 0 none) } }
     s.boundary.listen = true ∧ s.listen[0].state = .closed ∧
      (∀ k : ListenId, s.listen[k].resumeWaits = false ∧ s.listen[k].close ≠ .taken) ∧
      s.listen[2].tag = some 0x5C ∧ s.listen[2].state ≠ .closed ∧ s.listen[2].close = .none ∧
      s.smap.entries[6].tagOf = some 0x5C ∧ (∀ j : Slot, j < 6 → s.smap.entries[j].tagOf ≠ some 0x5C) ∧
      s.listen[2].bound ≠ some 6 ∧ s.listen[2].bound.isSome = true) ∧
    (∀ j : Slot, moving.smap.entries[j].tagOf ≠ some 0x5C) ∧ (listener .halted (some 6)).bound = some 6 ∧
    (let l : Listen := { (listener .halted (some 11)) with resumeWaits := true }
     l.tag = some 0x5C ∧ l.state = .halted ∧ l.close = .none ∧ l.resumeWaits = true) ∧
    (let l : Listen := { (draining [{ purpose := .dataWrite, stale := false, index := 0, words := 8, ok := false,
                                      event := false }] 0).listen[0] with close := .taken }
     l.close = .taken ∧ l.resumeWaits = false ∧ l.writing = true) ∧
    (let l : Listen := { (draining [] 1).listen[0] with close := .taken }
     l.close = .taken ∧ l.writing = false ∧ (heldOf l.ring.current).isSome = true ∧ 0 < l.ring.position) ∧
    (draining [] 0).listen[0].ring.position = 0 ∧ (Listen.close { moving.listen[2] with close := .applied } = .applied) ∧
    (let l : Listen := { (listener .waiting none) with duplicate := true }
     l.state ≠ .closed ∧ l.close = .none ∧ l.bound ≠ some 6 ∧ l.ring.ci = l.ring.fi ∧ l.duplicate = true) ∧
    (let l : Listen := { (listener .receiving (some 31)) with episode := some { words := 65535, slot := 31 } }
     l.bound = some 31 ∧ l.state ≠ .halted ∧ l.episode = some { words := 65535, slot := 31 } ∧
      l.duplicate = false) := by decide

/-- STC at a boundary in a state, with its counts. -/
def judging (st : StationState) (learn rounds errors : Nat) (band : Band) : State :=
  { (station st) with
    stc := { (station st).stc with learn, windowRounds := rounds, windowErrors := errors, band }
    boundary := { BoundaryWork.nothing with station := true } }

theorem test_hyp_StationBoundaryWorkLearnsAndJudges :
    (station .joined).boundary.station = false ∧
    (let s := judging .listening 6 62 0 .good
     s.boundary.station = true ∧ s.stc.leavePending = false ∧ s.stc.state = .listening ∧ s.stc.learn < 7 ∧
      s.stc.windowRounds < 63) ∧
    (let s : State := { (judging .joined 8 63 8 .good) with
        stc := { (judging .joined 8 63 8 .good).stc with report := some { slot := 31, tag := 1 } } }
     s.boundary.station = true ∧ s.stc.leavePending = false ∧ s.stc.report = some { slot := 31, tag := 1 } ∧
      s.stc.state = .joined) ∧
    (judging .listening 7 62 0 .good).stc.report = none ∧
    (judging .listening 7 62 0 .good).stc.learn = 7 ∧ (judging .joined 8 62 0 .good).stc.windowRounds < 63 ∧
    (judging .joined 8 63 8 .good).stc.windowRounds = 63 ∧
    Band.degraded = (if 8 ≤ (judging .joined 8 63 8 .good).stc.windowErrors then .degraded else .good) ∧
    Band.good = (if 8 ≤ (judging .joined 8 63 7 .good).stc.windowErrors then .degraded else .good) ∧
    Band.good = (if (judging .joined 8 63 1 .degraded).stc.windowErrors ≤ 1 then .good else .degraded) ∧
    Band.degraded = (if (judging .joined 8 63 2 .degraded).stc.windowErrors ≤ 1 then .good else .degraded) := by
  decide

theorem test_hyp_LeaveEndsAtABoundary :
    (let s : State := { (judging .leaving 8 62 0 .good) with
        stc := { (judging .leaving 8 62 0 .good).stc with report := some { slot := 0, tag := 1 } } }
     s.boundary = { BoundaryWork.nothing with station := true } ∧ s.stc.report = some { slot := 0, tag := 1 } ∧
      s.stc.state = .leaving ∧ s.cle.queue = [] ∧ (∀ k : TalkId, s.talk[k].bound = none)) ∧
    (let s := judging .leaving 8 62 0 .good
     s.stc.report = none ∧ s.evq.dropped < 65535 ∧
      s.boundary = { BoundaryWork.nothing with station := true } ∧ s.stc.windowRounds < 63 ∧ s.stc.state = .leaving ∧
      s.cle.queue = [] ∧ (∀ k : TalkId, s.talk[k].bound = none) ∧ (∀ k : TalkId, s.talk[k].heldHalts = []) ∧
      (∀ k : ListenId, s.listen[k].episode = none ∧ s.listen[k].close = .none) ∧ s.evq.queue.length < 32) ∧
    (let s : State := { (judging .listening 3 62 0 .good) with
        stc := { (judging .listening 3 62 0 .good).stc with leavePending := true } }
     s.stc.state = .listening ∧ s.stc.leavePending = true) ∧
    (let s : State := { (judging .leaving 8 62 0 .good) with
        talk := (Vector.replicate 8 Talk.clear).set 7 (talker .running (some 3)) }
     s.stc.state = .leaving ∧ s.talk[7].bound.isSome = true ∧ s.cle.holds 7 = false ∧
      s.stc.leaveMarks[7] = false) := by decide

/-- The example's first search from listen channel 4: 13 is the first ready channel. Four outstanding stop the arbiter,
and so do absorption and empty lists. -/
theorem test_hyp_ArbiterGrantsInTurn :
    (sixChannels.outstanding.length < 4 ∧ sixChannels.absorb = 0 ∧ sixChannels.waiting[13] = [asked 0xF 13] ∧
      ∀ d : ChannelId, d - (sixChannels.pointer + 1) < 13 - (sixChannels.pointer + 1) →
        sixChannels.waiting[d] = []) ∧
    4 ≤ sixChannels.grant.grant.grant.grant.outstanding.length ∧ 0 < sixChannels.grant.absorbAll.absorb ∧
    (∀ c : ChannelId, Mpt.powerOn.waiting[c] = []) := by decide

theorem test_hyp_OldResponsesAreAbsorbed :
    (let s : State := { leaving with mpt := { sixChannels.grant with absorb := 1 } }
     s.mpt.outstanding = [asked 0xF 13] ∧ 0 < s.mpt.absorb ∧ s.mpt.absorb = 1 ∧ s.portBounded ∧
      s.mpt.waiting[0] ≠ []) := by
  unfold State.portBounded; decide

/-- One entry of talk channel 7's list, outstanding on the bus. -/
def answering (e : RequestEntry) (t : Talk) : State :=
  { (station .joined) with
    mpt := { Mpt.powerOn with
      outstanding := [{ purpose := e.purpose, address := 0x1000, words := e.words, requester := talkChannel 7,
                        data := [] }] }
    talk := (Vector.replicate 8 Talk.clear).set 7 { t with requests := [e] } }

/-- A fetch of descriptor 0, live or stale. -/
def fetchOf (stale : Bool) : RequestEntry :=
  { purpose := .descFetch, stale, index := 0, words := 2, ok := false, event := false }

/-- One entry of listen channel 7's list, outstanding on the bus. -/
def answeringListener (e : RequestEntry) (l : Listen) : State :=
  { (station .joined) with
    mpt := { Mpt.powerOn with
      outstanding := [{ purpose := e.purpose, address := 0x1000, words := e.words, requester := listenChannel 7,
                        data := [] }] }
    listen := (Vector.replicate 8 Listen.clear).set 7 { l with requests := [e] } }

/-- A buffer whose last word is its region's last (good), and one that passes it, one of no words, one that is not
aligned (bad). -/
theorem test_hyp_FetchResponsesAreChecked :
    (let s := answering (fetchOf true) (talker .halted none)
     s.talk[7].requests = fetchOf true :: [] ∧ (fetchOf true).stale = true ∧ s.talk[7].state = .halted) ∧
    (let s := answering (fetchOf false) { (talker .armed none) with
        ring := { base := 0x1000, ci := 0, fi := 1, current := some .fetching, ahead := none, position := 0 } }
     s.mpt.outstanding.length = 1 ∧ s.mpt.absorb = 0 ∧ (fetchOf false).purpose = .descFetch ∧
      (fetchOf false).stale = false ∧ (fetchOf false).index = s.talk[7].ring.ci ∧ s.talk[7].onLine = none) ∧
    ((0x1FFFC : Word).toNat % 4 = 0 ∧ (0x1FFFC : Word).toNat / 65536 = ((0x1FFFC : Word).toNat + 4 * 1 - 1) / 65536) ∧
    ((0x1FFFC : Word).toNat / 65536 ≠ ((0x1FFFC : Word).toNat + 4 * 2 - 1) / 65536) ∧
    (0x1FFFE : Word).toNat % 4 ≠ 0 ∧ (0xC0000000 : Word).toNat % 16384 = 0 ∧
    (let s := answering (fetchOf false) { (talker .running (some 3)) with
        ring := { base := 0x1000, ci := 0, fi := 1, current := some .fetching, ahead := none, position := 0 }
        onLine := some [] }
     s.talk[7].onLine.isSome = true ∧ (fetchOf false).index = s.talk[7].ring.ci) ∧
    (let s := answering (fetchOf false) { (talker .armed none) with
        ring := { base := 0x1000, ci := 31, fi := 1, current := some (.held (buffer 9)), ahead := some .fetching,
                  position := 0 } }
     (fetchOf false).index = s.talk[7].ring.ci + 1 ∧ s.talk[7].ring.ahead = some .fetching ∧
      s.talk[7].ring.current = some (.held (buffer 9))) ∧
    (let s := answeringListener (fetchOf true) (listener .halted none)
     s.mpt.outstanding.length = 1 ∧ s.mpt.absorb = 0 ∧ s.listen[7].requests = [fetchOf true] ∧
      s.listen[7].close = .none ∧ s.listen[7].state = .halted) ∧
    (let s := answeringListener (fetchOf false) { (listener .waiting none) with
        ring := { base := 0x1000, ci := 0, fi := 1, current := some .fetching, ahead := none, position := 0 } }
     (fetchOf false).index = s.listen[7].ring.ci ∧ s.listen[7].close = .none) ∧
    (let s := answeringListener (fetchOf false) { (listener .receiving (some 3)) with
        ring := { base := 0x1000, ci := 31, fi := 1, current := some (.held (buffer 9)), ahead := some .fetching,
                  position := 8 } }
     (fetchOf false).index = s.listen[7].ring.ci + 1 ∧ s.listen[7].ring.ahead = some .fetching ∧
      s.listen[7].ring.current = some (.held (buffer 9))) := by decide

/-- A Fill index write taken and a response handed over, each with an effect. -/
theorem test_hyp_ChannelEventsStayInTheirChannel :
    exec (.fillIndexWrite 2 8) extending = .next (after (.fillIndexWrite 2 8) extending) ∧
    after (.fillIndexWrite 2 8) extending ≠ extending ∧
    (let s := answering (fetchOf false) { (talker .armed none) with
        ring := { base := 0x1000, ci := 0, fi := 1, current := some .fetching, ahead := none, position := 0 } }
     s.mpt.outstanding.length = 1 ∧ s.mpt.absorb = 0 ∧
      exec (.memoryResponse true (Vector.replicate 8 0)) s =
        .next (after (.memoryResponse true (Vector.replicate 8 0)) s) ∧
      (after (.memoryResponse true (Vector.replicate 8 0)) s).talk[7].state = .halted) := by
  refine ⟨rfl, by decide, by decide, by decide, rfl, by decide⟩

theorem test_hyp_EventsKeepTheHostSide :
    fromHost .lineStuckTimeout = false ∧
    exec .lineStuckTimeout (station .joined) = .next (after .lineStuckTimeout (station .joined)) ∧
    (after .lineStuckTimeout (station .joined)).stc.state = .fault := by
  refine ⟨by decide, rfl, by decide⟩

theorem test_hyp_ReadAndWritebackResponses :
    (let e : RequestEntry := { purpose := .dataRead, stale := false, index := 0, words := 8, ok := false,
                               event := false }
     (answering e (talker .running (some 3))).talk[7].requests = [e] ∧ e.purpose = .dataRead ∧
      (let t : Talk := { (talker .running (some 3)) with
          ring := { base := 0x1000, ci := 0, fi := 2, current := some (.held (buffer 9)), ahead := none,
                    position := 8 } }
       e.index = t.ring.ci ∧ t.onLine = none ∧ t.ring.current = some (.held (buffer 9)) ∧
        (Talk.onLine { t with onLine := some [] }).isSome = true ∧ t.state ≠ .closed ∧ t.state ≠ .halted) ∧
      (let t : Talk := { (talker .running (some 3)) with
          ring := { base := 0x1000, ci := 31, fi := 2, current := some (.held (buffer 9)),
                    ahead := some (.held (buffer 9)), position := 8 } }
       e.index = t.ring.ci + 1 ∧ t.ring.ahead = some (.held (buffer 9)))) ∧
    (let e : RequestEntry := { purpose := .writeback, stale := false, index := 0, words := 2, ok := true,
                               event := true }
     (answering e (talker .halted none)).talk[7].state = .halted ∧ e.purpose = .writeback ∧
      (answering e (talker .running (some 3))).evq.queue.length < 32 ∧
      (answering e (talker .running (some 3))).records .bufferDone = true ∧
      (answering e (talker .running (some 3))).records .writebackFailed = true ∧
      (answering e Talk.clear).talk[7].state = .closed ∧
      (let s := answering e { (talker .running (some 3)) with
          ring := { base := 0x1000, ci := 1, fi := 2, current := some (.held (buffer 9)),
                    ahead := none, position := 1 } }
       s.talk[7].state ≠ .closed ∧ s.talk[7].state ≠ .halted ∧ s.talk[7].onLine = none ∧
        s.talk[7].ring.current = some (.held (buffer 9))) ∧
      (answering e (talker .armed none)).talk[7].ring.current = none ∧
      (let s := answeringListener e { (listener .receiving (some 3)) with
          ring := { base := 0x1000, ci := 1, fi := 2, current := some (.held (buffer 9)),
                    ahead := none, position := 1 } }
       s.listen[7].requests = e :: [] ∧ s.listen[7].close ≠ .applied ∧ s.listen[7].state ≠ .closed ∧
        s.listen[7].state ≠ .halted ∧ s.evq.queue.length < 32 ∧
        s.listen[7].ring.current = some (.held (buffer 9))) ∧
      (answeringListener e (listener .halted none)).listen[7].state = .halted ∧
      (answeringListener e Listen.clear).listen[7].state = .closed ∧
      (answeringListener e (listener .waiting none)).listen[7].ring.current = none ∧
      e.ok = true ∧ e.event = true) := by decide

/-- A writeback's response while a CLOSE that has been applied waits for a write. -/
theorem test_hyp_ReadAndWritebackResponses_closing :
    writesLeft [{ purpose := .dataWrite, stale := false, index := 0, words := 2, ok := false, event := false }] ∧
    (Listen.close { (listener .waiting none) with close := .applied } = .applied) := by
  unfold writesLeft; decide

/-- A write of 2 words to a buffer of 10, from position 7 (one word short) and from 8 (its last). -/
def writing (position : Nat) (final : Bool) : State :=
  { (station .joined) with
    mpt := { Mpt.powerOn with
      outstanding := [{ purpose := .dataWrite, address := 0x20000, words := 2, requester := listenChannel 7,
                        data := [1, 2] }] }
    listen := (Vector.replicate 8 Listen.clear).set 7
      { (listener .receiving (some 11)) with
        ring := { base := 0x1000, ci := 31, fi := 0, current := some (.held (buffer 10 final)), ahead := none,
                  position }
        requests := [{ purpose := .dataWrite, stale := false, index := 31, words := 2, ok := false, event := false }]
        inWrite := [{ word := 1, sequence := 15 }, { word := 2, sequence := 0 }] } }

theorem test_hyp_WriteResponsesCountTheWordsDone :
    (let s := writing 7 false
     s.mpt.absorb = 0 ∧ s.mpt.outstanding.length = 1 ∧ s.listen[7].requests.length = 1 ∧
      s.listen[7].close = .none ∧ s.listen[7].ring.current = some (.held (buffer 10)) ∧
      (s.listen[7].inWrite.take 2).getLast? = some { word := 2, sequence := 0 } ∧ s.listen[7].state ≠ .closed ∧
      s.listen[7].state ≠ .halted ∧ s.listen[7].ring.position + 2 < (buffer 10).length) ∧
    ((writing 8 true).listen[7].ring.position + 2 = (buffer 10 true).length ∧
      (writing 8 true).listen[7].ring.ahead = none ∧ (buffer 10 true).final = true) ∧
    (writing 8 false).listen[7].ring.position + 2 = (buffer 10).length ∧
    (let ahead (a : Taken) : Listen := { (writing 8 false).listen[7] with
        ring := { (writing 8 false).listen[7].ring with fi := 1, ahead := some a } }
     (ahead (.held (buffer 4))).ring.ahead = some (.held (buffer 4)) ∧
      (ahead (.bad (buffer 0))).ring.ahead = some (.bad (buffer 0)) ∧
      (ahead .fetchError).ring.ahead = some .fetchError ∧ (buffer 10).final = false) := by decide

/-- A CLOSE that has been applied with the answered write the last, and with one more outstanding. -/
theorem test_hyp_WriteResponsesCountTheWordsDone_closing :
    (let l : Listen := { (writing 7 false).listen[7] with close := .applied, state := .waiting, bound := none }
     l.close = .applied ∧ l.state ≠ .closed ∧ l.state ≠ .halted ∧ ¬ writesLeft (l.requests.drop 1) ∧
      writesLeft l.requests) := by
  unfold writesLeft; decide

theorem test_hyp_BurstsReadBack :
    ((streamed 15).words.length ≤ 8 ∧ (streamed 15).tag ≠ 0 ∧ (streamed 15).kind ≠ .fill) ∧
    (let b : Burst := { owner := 31, tag := 0xFF, kind := .fill, sequence := 0, words := [] }
     b.words.length ≤ 8 ∧ b.tag ≠ 0 ∧ b.kind = .fill ∧ b.words = []) := by decide

theorem test_hyp_DescriptorWordsCarryTheirFields : 16383 < 16384 ∧
    (0x80000005 : Word).extractLsb' 0 14 = (0xBFFFC005 : Word).extractLsb' 0 14 ∧
    (0x80000005 : Word).extractLsb' 30 2 = (0xBFFFC005 : Word).extractLsb' 30 2 := by decide

/-- A full queue with a POP waiting, which answers a next state, as every step does. -/
theorem test_hyp_EventQueueStaysWithinItsPlaces :
    (let s : State := { flooded with
       pending := [.pop], evq := { queue := List.replicate 32 (event .granted), dropped := 1, head := .nothing } }
     s.eventsBounded ∧ s.evq.queue.length = 32 ∧ ∃ t, step s = .next t) :=
  ⟨by unfold State.eventsBounded; decide, by decide, _, rfl⟩

theorem test_hyp_MemoryPortStaysWithinItsPlaces :
    (let s : State := { leaving with pending := [.arbiterGrant],
                                     mpt := sixChannels.grant.grant.grant.grant.absorbAll }
     s.portBounded ∧ s.mpt.absorb = 4 ∧ ∃ t, step s = .next t) :=
  ⟨by unfold State.portBounded; decide, by decide, _, rfl⟩

theorem test_hyp_ClaimQueueHoldsOneRequestAChannel :
    (let s : State := { fullQueue with pending := [.claim] }
     s.claimsDistinct ∧ s.cle.queue.length = 8 ∧ ∃ t, step s = .next t) :=
  ⟨by unfold State.claimsDistinct; decide, by decide, _, rfl⟩

theorem test_hyp_StationStaysConsistent :
    (let s : State := { leaving with pending := [.leave] }
     s.causeOnlyInFault ∧ s.recordExceptInOff ∧ s.countsBounded ∧ s.recordInRange ∧ ∃ t, step s = .next t) := by
  refine ⟨by unfold State.causeOnlyInFault; decide, by unfold State.recordExceptInOff; decide,
    by unfold State.countsBounded; decide, ?_, _, rfl⟩
  exact test_hyp_ReadStatusCopiesTheRecord.2.2.2.2.2

/-- A ring with both descriptors taken. -/
theorem test_hyp_RingLawIsKept : extending.talk[2].lawful ∧ moving.listen[2].lawful ∧ Talk.clear.lawful ∧
    Listen.clear.lawful := by
  refine ⟨⟨⟨by decide, by decide, by decide, ?_⟩, by decide⟩, ⟨⟨by decide, by decide, by decide, ?_⟩, by decide⟩,
    ⟨⟨by decide, by decide, by decide, ?_⟩, by decide⟩, ⟨⟨by decide, by decide, by decide, ?_⟩, by decide⟩⟩ <;>
  intro e he <;> cases he

/-- A station that sends in its one slot, and reads it back. -/
theorem test_hyp_MapStaysInItsBounds_bindings :
    (let s : State := { extending with
       pending := [.burstSent (streamed 4).line]
       smap := { Smap.clear with
         entries := (Vector.replicate 32 Entry.free).set 4 (.own 0x44 none 1)
         observations := (Vector.replicate 32 (none : Option Observation)).set 4 (some (.sentMismatch none)) } }
     s.bindingsAgree ∧ s.inLink = true ∧ ∃ t, step s = .next t) := by
  refine ⟨⟨by decide, ?_, by decide, by decide, ?_, ?_, by decide⟩, by decide, _, rfl⟩
  · intro j k i hj hk
    have one : ∀ k : TalkId, extending.talk[k].bound.isSome = true → k = 2 := by decide
    rw [one j (by rw [show extending.talk[j].bound = some i from hj]; rfl),
      one k (by rw [show extending.talk[k].bound = some i from hk]; rfl)]
  · intro _ i o h ho
    have own : ∀ i : Slot,
        ((((Vector.replicate 32 (none : Option Observation)).set 4 (some (.sentMismatch none)))[i]).map
          Observation.isSent) = some true →
        (((Vector.replicate 32 Entry.free).set 4 (.own 0x44 none 1))[i]).isOwn = true := by decide
    exact own i (by rw [show ((Vector.replicate 32 (none : Option Observation)).set 4
      (some (.sentMismatch none)))[i] = some o from h]; simp [ho])
  · intro i b h
    obtain ⟨rfl, rfl⟩ : 4 = i ∧ _ = b := by simpa [extending] using h
    decide

/-- A staging of 14 words with a read of 2 more outstanding. -/
theorem test_hyp_DepositsStayWithinTheirRoom_staging :
    (let s : State := { extended with
       pending := [.arbiterGrant]
       talk := extended.talk.set 2 { extended.talk[2] with
         staging := staged 6 (List.replicate 14 9)
         requests := [{ purpose := .dataRead, stale := false, index := 6, words := 2, ok := false,
                        event := false }] } }
     s.stagingBounded ∧ s.talk[2].staging.length + s.talk[2].reading = 16 ∧ ∃ t, step s = .next t) :=
  ⟨by unfold State.stagingBounded; decide, by decide, _, rfl⟩

theorem test_hyp_DepositsStayWithinTheirRoom :
    (let s : State := { moving with
       pending := [.burstReceived (streamed 9).line]
       listen := moving.listen.set 2 (depositing 16) }
     s.depositsBounded ∧ s.listen[2].waiting.length = 16 ∧ ∃ t, step s = .next t) :=
  ⟨by unfold State.depositsBounded; decide, by decide, _, rfl⟩

end Sys2Proof.Tests
end

/-! The station commands START, LEAVE in FAULT and RESET: how a code write reaches its command (R151, R156), which START
record the parameters spell (R23, R177), and what the three commands leave (R23, R34, R40). -/

namespace Sys2Proof.Machine

/-! ## A code write and its command (R151, R156) -/

/-- The code word holds the code just written, and nothing else has changed (R176). -/
def State.withCode (s : State) (code : BitVec 8) : State := s.setHpt { s.hpt with code }

/-- An immediate command is answered with the code that was written for it (R151). -/
theorem answered_withCode (s : State) (result : ResultCode) (code : BitVec 8) :
    answered code (result, s.withCode code) = s.answeredWith result code := rfl

/-- A record is entered alike whatever the code word holds (R166 to R168). -/
theorem State.post_withCode (s : State) (code : BitVec 8) (r : EventRecord) :
    (s.withCode code).post r = (s.post r).withCode code := by
  have records : (s.withCode code).records r.kind = s.records r.kind := State.records_congr rfl _
  by_cases recorded : s.records r.kind = true
  · rw [State.post_of_recorded recorded, State.post_of_recorded (records.trans recorded)]
    by_cases place : s.evq.queue.length < 32
    · rw [State.enter_of_place place, State.enter_of_place (s := s.withCode code) place]
      rfl
    · rw [State.enter_of_full (Nat.not_lt.mp place),
        State.enter_of_full (s := s.withCode code) (Nat.not_lt.mp place)]
      rfl
  · have masked : s.records r.kind = false := by simpa using recorded
    rw [State.post_of_masked masked, State.post_of_masked (records.trans masked)]

@[simp] theorem State.post_shapeMismatch (s : State) (r : EventRecord) :
    (s.post r).hpt.flags.shapeMismatch = s.hpt.flags.shapeMismatch := by
  rw [(s.post_recorded r).hpt]

@[simp] theorem State.post_lineStuck (s : State) (r : EventRecord) :
    (s.post r).hpt.flags.lineStuck = s.hpt.flags.lineStuck := by
  rw [(s.post_recorded r).hpt]

/-- With RST_N not held and the mailbox free, a code other than RESET's is taken as a command (R151). -/
theorem State.codeWrite_of_takes {s : State} {code : BitVec 8} (h : s.takes) (hc : code ≠ 4) :
    s.codeWrite code = (s.withCode code).takeCommand code := by
  obtain ⟨released, free⟩ := h
  have other : ¬ code = 4#8 := hc
  cases mailbox : s.hpt.mailbox with
  | busy c => simp [mailbox, Mailbox.isBusy] at free
  | idle => simp [State.codeWrite, State.withCode, released, other, mailbox]
  | done result c => simp [State.codeWrite, State.withCode, released, other, mailbox]

/-- RESET is taken in every mailbox state (R156). -/
theorem State.codeWrite_reset {s : State} (h : s.rstHeld = false) : s.codeWrite 4 = s.commandReset := by
  simp [State.codeWrite, h]

theorem exec_start_of_takes {s : State} (h : s.takes) :
    exec .start s = .next (answered 1 (s.withCode 1).startCommand) :=
  congrArg _ (State.codeWrite_of_takes h (by decide))

theorem exec_join_of_takes {s : State} (h : s.takes) :
    exec .join s = .next (answered 2 (s.withCode 2).joinCommand) :=
  congrArg _ (State.codeWrite_of_takes h (by decide))

theorem exec_leave_of_takes {s : State} (h : s.takes) :
    exec .leave s = .next (answered 3 (s.withCode 3).leaveCommand) :=
  congrArg _ (State.codeWrite_of_takes h (by decide))

theorem exec_reset_of_released {s : State} (h : s.rstHeld = false) : exec .reset s = .next s.commandReset :=
  congrArg _ (State.codeWrite_reset h)

/-! ## START's parameters (R23, R177) -/

theorem paramBelow_eq_some {n : Nat} {w : Word} {i : Fin n} : paramBelow n w = some i ↔ w.toNat = i.val := by
  unfold paramBelow
  split
  · simp [Fin.ext_iff]
  · simp only [reduceCtorEq, false_iff]
    omega

theorem Shape.ofCode_eq_some {n : Nat} {shape : Shape} : Shape.ofCode n = some shape ↔ n = shape.code := by
  constructor
  · intro h
    unfold Shape.ofCode at h
    split at h <;> cases h <;> rfl
  · rintro rfl
    cases shape <;> rfl

/-- A shape code is 0, 1 or 2 (section 1.2). -/
theorem Shape.code_lt (shape : Shape) : shape.code < 3 := by
  cases shape <;> decide

/-- START's parameters give exactly the record they spell, and only one in range (R23, R177). -/
theorem startRecordOf_eq_some {params : Vector Word 4} {r : StartRecord} :
    startRecordOf params = some r ↔
      params[0].toNat = r.id.val ∧ params[1].toNat = r.shape.code ∧ params[2].toNat = r.period ∧
      retryLimitOf params[3] = r.retryLimit ∧ maskOf params[3] = r.mask ∧ r.inRange := by
  rw [← paramBelow_eq_some, ← Shape.ofCode_eq_some]
  obtain ⟨id, shape, period, retryLimit, mask⟩ := r
  unfold startRecordOf StartRecord.inRange
  cases paramBelow 32 params[0] with
  | none => simp
  | some id' =>
    cases Shape.ofCode params[1].toNat with
    | none => simp
    | some shape' =>
      simp only [Option.ite_none_right_eq_some, Bool.and_eq_true, decide_eq_true_eq, Option.some.injEq,
        StartRecord.mk.injEq]
      constructor
      · rintro ⟨⟨⟨⟨least, most⟩, one⟩, limit⟩, rfl, rfl, rfl, rfl, rfl⟩
        exact ⟨rfl, rfl, rfl, rfl, rfl, least, most, one, limit⟩
      · rintro ⟨rfl, rfl, rfl, rfl, rfl, least, most, one, limit⟩
        exact ⟨⟨⟨⟨least, most⟩, one⟩, limit⟩, rfl, rfl, rfl, rfl, rfl⟩

/-! ## START (R23) -/

theorem State.startCommand_of_not_off {s : State} (h : s.stc.state ≠ .off) :
    s.startCommand = (.badState, s) := by
  simp [State.startCommand, h]

theorem State.startCommand_of_record {s : State} {r : StartRecord} (h : s.stc.state = .off)
    (hr : startRecordOf s.hpt.params = some r) :
    s.startCommand = (.ok, (s.setStc { s.stc with start := some r, state := .ready }).setSmap s.smap.freed) := by
  simp [State.startCommand, h, hr]

theorem State.startCommand_of_no_record {s : State} (h : s.stc.state = .off)
    (hr : startRecordOf s.hpt.params = none) : s.startCommand = (.badParam, s) := by
  simp [State.startCommand, h, hr]

/-- Settles O4: the parameters spell a record in range in the second clause, and none in the third. -/
theorem startKeepsARecordInRange : Obligations.StartKeepsARecordInRange := by
  intro s taken
  rw [exec_start_of_takes taken]
  refine ⟨fun notOff => ?_, fun off id shape hid hshape least most one limit => ?_, fun off outside => ?_⟩
  · rw [State.startCommand_of_not_off (s := s.withCode 1) notOff, answered_withCode]
  · have spelled : startRecordOf s.hpt.params = some
        { id, shape, period := s.hpt.params[2].toNat, retryLimit := retryLimitOf s.hpt.params[3]
          mask := maskOf s.hpt.params[3] } :=
      startRecordOf_eq_some.mpr ⟨hid, hshape, rfl, rfl, rfl, least, most, one, limit⟩
    rw [State.startCommand_of_record (s := s.withCode 1) off spelled]
    rfl
  · have notSpelled : startRecordOf s.hpt.params = none := by
      refine Option.eq_none_iff_forall_ne_some.mpr fun r spelled => ?_
      obtain ⟨hid, hshape, hperiod, hlimit, -, least, most, one, limit⟩ := startRecordOf_eq_some.mp spelled
      rw [retryLimitOf] at hlimit
      rcases outside with idAbove | codeAbove | ⟨shape, same, period⟩ | limitZero | limitAbove
      · omega
      · have := r.shape.code_lt
        omega
      · obtain rfl : r.shape = shape :=
          Option.some.inj ((Shape.ofCode_eq_some.mpr hshape).symm.trans (Shape.ofCode_eq_some.mpr same))
        omega
      · omega
      · omega
    rw [State.startCommand_of_no_record (s := s.withCode 1) off notSpelled, answered_withCode]

/-! ## RESET (R40, R156) -/

section
variable (s : State)

@[simp] theorem State.commandReset_stc : s.commandReset.stc =
    { Stc.powerOn with state := if s.stc.start.isSome then .ready else .off, start := s.stc.start } := rfl
@[simp] theorem State.commandReset_evq : s.commandReset.evq = { Evq.clear with queue := [resetDoneRecord] } := rfl
@[simp] theorem State.commandReset_rstHeld : s.commandReset.rstHeld = s.rstHeld := rfl

@[simp] theorem State.commandReset_talk (k : TalkId) : s.commandReset.talk[k] = .clear := by
  simp [State.commandReset, State.reset]

@[simp] theorem State.commandReset_listen (k : ListenId) : s.commandReset.listen[k] = .clear := by
  simp [State.commandReset, State.reset]

end

theorem Smap.clear_entries (i : Slot) : Smap.clear.entries[i] = .free := by
  simp [Smap.clear]

theorem Mpt.absorbAll_waiting (m : Mpt) (c : ChannelId) : m.absorbAll.waiting[c] = [] := by
  simp [Mpt.absorbAll, Mpt.powerOn]

/-- The record RESET leaves asserts HIRQ (R163, R171). -/
theorem State.commandReset_hirq {s : State} (h : s.rstHeld = false) : s.commandReset.hirq = true := by
  simp [State.hirq, h]

/-- Settles O3: block by block (STC, RTM, LIF, SMAP, CLE, TKE, LNE, MPT, HPT, EVQ), each at the value RESET writes. -/
theorem resetCommandKeepsTheRecordAndCounters : Obligations.ResetCommandKeepsTheRecordAndCounters := by
  intro s released
  have talk : ∀ k : TalkId, s.commandReset.talk[k].state = .closed ∧ s.commandReset.talk[k].ring.ci = 0 ∧
      s.commandReset.talk[k].ring.fi = 0 ∧ s.commandReset.talk[k].requests = [] := fun k => by
    rw [s.commandReset_talk k]
    exact ⟨rfl, rfl, rfl, rfl⟩
  have listen : ∀ k : ListenId, s.commandReset.listen[k].state = .closed ∧ s.commandReset.listen[k].ring.ci = 0 ∧
      s.commandReset.listen[k].ring.fi = 0 ∧ s.commandReset.listen[k].requests = [] := fun k => by
    rw [s.commandReset_listen k]
    exact ⟨rfl, rfl, rfl, rfl⟩
  exact ⟨s.commandReset, exec_reset_of_released released,
    rfl, rfl, rfl, rfl, rfl, rfl, rfl, rfl, rfl,
    rfl, rfl, rfl, rfl,
    rfl, rfl, rfl, rfl,
    Smap.clear_entries, rfl, rfl,
    rfl, rfl,
    talk, listen,
    s.mpt.absorbAll_waiting, rfl, rfl, rfl,
    rfl, rfl, State.commandReset_hirq released⟩

/-! ## LEAVE in FAULT (R34) -/

/-- The station after LEAVE in FAULT, before the record of it: READY, with no cause and a FREE map (R34, R46). -/
def State.leftFault (s : State) : State :=
  (s.setStc { s.stc with state := .ready, cause := none }).setSmap s.smap.freed

theorem State.leftFault_withCode (s : State) (code : BitVec 8) :
    (s.withCode code).leftFault = s.leftFault.withCode code := rfl

/-- LEAVE in FAULT acts at once, with LINK_LEFT of detail 0 (R34). -/
theorem State.leaveCommand_fault {s : State} (h : s.stc.state = .fault) :
    s.leaveCommand = (.ok, s.leftFault.post (event .linkLeft)) := by
  simp [State.leaveCommand, h, State.leftFault]

theorem exec_leave_fault {s : State} (h : s.takes) (fault : s.stc.state = .fault) :
    exec .leave s = .next ((s.leftFault.post (event .linkLeft)).answeredWith .ok 3) := by
  rw [exec_leave_of_takes h, State.leaveCommand_fault (s := s.withCode 3) fault, State.leftFault_withCode,
    State.post_withCode, answered_withCode]

/-- An answered command leaves the mailbox free, so that the next one is taken (R150, R151). -/
theorem State.takes_answeredWith {s : State} (h : s.rstHeld = false) (result : ResultCode) (code : BitVec 8) :
    (s.answeredWith result code).takes := ⟨h, rfl⟩

theorem State.joinCommand_ready {s : State} (h : s.stc.state = .ready) :
    s.joinCommand.2.stc.state = .listening := by
  simp [State.joinCommand, h]

/-- From READY the host may give JOIN (R25). -/
theorem exec_join_ready {s : State} (h : s.takes) (ready : s.stc.state = .ready) :
    ∃ u, exec .join s = .next u ∧ u.stc.state = .listening :=
  ⟨_, exec_join_of_takes h, State.joinCommand_ready (s := s.withCode 2) ready⟩

/-- RESET leads every station that holds a START record to READY (R40). -/
theorem exec_reset_ready {s : State} (h : s.rstHeld = false) (started : s.stc.start ≠ none) :
    ∃ t, exec .reset s = .next t ∧ t.stc.state = .ready :=
  ⟨_, exec_reset_of_released h, by simp [Option.isSome_iff_ne_none, started]⟩

/-- Settles O7: the event the model posts is the record of the statement, and a posted record keeps the flags. -/
theorem leaveInFaultReturnsToReady : Obligations.LeaveInFaultReturnsToReady := by
  intro s taken fault
  have released : s.rstHeld = false := taken.1
  refine ⟨exec_leave_fault taken fault, fun t left => ?_, fun record => ?_⟩
  · rw [exec_leave_fault taken fault, Host.Outcome.next.injEq] at left
    subst left
    have free : ((s.leftFault.post (event .linkLeft)).answeredWith .ok 3).takes :=
      State.takes_answeredWith (by rw [State.post_rstHeld]; exact released) _ _
    exact ⟨State.post_shapeMismatch _ _, State.post_lineStuck _ _,
      exec_join_ready free (congrArg Stc.state (State.post_stc _ _))⟩
  · refine exec_reset_ready released fun absent => ?_
    have off : s.stc.state = .off := record.mp absent
    simp [fault] at off

end Sys2Proof.Machine

/-! Step 1 of the Slot Map's boundary work: the valid burst a slot's observation is evidence of (R43), and what it makes
of an entry, case by case (R49 to R53). -/

namespace Sys2Proof.Machine

/-! ## The slot's valid burst (R43) -/

theorem State.evidence_of_unobserved {s : State} {slot : Slot} (h : s.smap.observations[slot] = none) :
    s.evidence slot = none := by
  rw [State.evidence, h, Option.bind_none]

theorem State.evidence_of_observed {s : State} {slot : Slot} {o : Observation}
    (h : s.smap.observations[slot] = some o) : s.evidence slot = o.evidence s.selfId := by
  rw [State.evidence, h, Option.bind_some]

/-! ## A new owner (R49) and a silent round (R53) -/

theorem Entry.ownedBy_of_ne {self x : StationId} (h : x ≠ self) (tag : Tag) :
    Entry.ownedBy self x tag = .peer x tag 0 none := if_neg h

section
variable {silent : Nat} (owner : StationId) (tag : Tag) (rival : Option StationId)

theorem Entry.silentRound_of_lt (h : silent < 7) :
    Entry.silentRound owner tag silent rival = .peer owner tag (silent + 1) rival :=
  if_neg (show ¬ 8 ≤ silent + 1 by omega)

/-- The eighth silent round is the last (R53). -/
theorem Entry.silentRound_of_ge (h : 7 ≤ silent) : Entry.silentRound owner tag silent rival = .free :=
  if_pos (show 8 ≤ silent + 1 by omega)

end

/-! ## The entry under evidence (R49 to R52) -/

section
variable {s : State} {slot : Slot} {x y : StationId} {t tag : Tag} {silent mismatches : Nat}
  {rival : Option StationId}

theorem State.evidenceStep_free (h : s.evidence slot = some (x, t)) (entry : s.smap.entries[slot] = .free) :
    s.evidenceStep slot = s.setEntry slot (.ownedBy s.selfId x t) := by
  simp only [State.evidenceStep, h, entry]

theorem State.evidenceStep_quarantine {n : Nat} (h : s.evidence slot = some (x, t))
    (entry : s.smap.entries[slot] = .quarantine n) :
    s.evidenceStep slot = s.setEntry slot (.ownedBy s.selfId x t) := by
  simp only [State.evidenceStep, h, entry]

/-- The recorded owner is heard: the burst's tag, no silence, no rival (R50). -/
theorem State.evidenceStep_owner_heard (h : s.evidence slot = some (x, t))
    (entry : s.smap.entries[slot] = .peer x tag silent rival) :
    s.evidenceStep slot = s.setEntry slot (.peer x t 0 none) := by
  simp only [State.evidenceStep, h, entry, if_pos]

/-- The rival is heard again and replaces the peer (R51). -/
theorem State.evidenceStep_rival_again (h : s.evidence slot = some (x, t))
    (entry : s.smap.entries[slot] = .peer y tag silent (some x)) (other : y ≠ x) :
    s.evidenceStep slot = s.setEntry slot (.ownedBy s.selfId x t) := by
  simp only [State.evidenceStep, h, entry, if_neg other, if_pos]

/-- A second station becomes the rival, in a round that is silent for the peer (R51, R53). -/
theorem State.evidenceStep_new_rival (h : s.evidence slot = some (x, t))
    (entry : s.smap.entries[slot] = .peer y tag silent rival) (other : y ≠ x) (new : rival ≠ some x) :
    s.evidenceStep slot = s.setEntry slot (.silentRound y tag silent (some x)) := by
  simp only [State.evidenceStep, h, entry, if_neg other, if_neg new]

/-- The station's own burst in its own slot: no rival, and the monitor's count stands (R50). -/
theorem State.evidenceStep_own_heard (h : s.evidence slot = some (s.selfId, t))
    (entry : s.smap.entries[slot] = .own tag rival mismatches) :
    s.evidenceStep slot = s.setEntry slot (.own tag none mismatches) := by
  simp only [State.evidenceStep, h, entry, if_pos]

theorem State.evidenceStep_own_new_rival (h : s.evidence slot = some (x, t))
    (entry : s.smap.entries[slot] = .own tag rival mismatches) (other : x ≠ s.selfId) (new : rival ≠ some x) :
    s.evidenceStep slot = s.setEntry slot (.own tag (some x) mismatches) := by
  simp only [State.evidenceStep, h, entry, if_neg other, if_neg new]

/-- The rival is heard again in an own slot, which is taken from the station (R51, R52). -/
theorem State.evidenceStep_own_taken (h : s.evidence slot = some (x, t))
    (entry : s.smap.entries[slot] = .own tag (some x) mismatches) (other : x ≠ s.selfId) :
    s.evidenceStep slot = (s.setEntry slot (.peer x t 0 none)).slotLost slot .taken (some x) := by
  simp only [State.evidenceStep, h, entry, if_neg other, if_pos]

end

/-- Settles O33: the observation gives the evidence; then by the entry, FREE or QUARANTINE, a peer's, or own, and by
whether the burst is the owner's, the rival's or a new station's. -/
theorem evidenceChangesTheEntry : Obligations.EvidenceChangesTheEntry := by
  refine ⟨fun s slot => ⟨?_, ?_, ?_, ?_⟩, fun s slot x t heard => ⟨?_, ?_, ?_⟩⟩
  · rintro (unobserved | silent | bad)
    · exact State.evidence_of_unobserved unobserved
    · exact State.evidence_of_observed silent
    · exact State.evidence_of_observed bad
  · exact fun _ _ => State.evidence_of_observed
  · exact fun _ => State.evidence_of_observed
  · exact fun _ => State.evidence_of_observed
  · rintro (free | ⟨n, quarantined⟩)
    · exact State.evidenceStep_free heard free
    · exact State.evidenceStep_quarantine heard quarantined
  · intro y tag silent rival entry
    refine ⟨?_, ?_, fun other new early => ?_, fun other new eighth => ?_⟩
    · rintro rfl
      exact State.evidenceStep_owner_heard heard entry
    · rintro other rfl foreign
      rw [State.evidenceStep_rival_again heard entry other, Entry.ownedBy_of_ne foreign]
    · rw [State.evidenceStep_new_rival heard entry other new, Entry.silentRound_of_lt _ _ _ early]
    · rw [State.evidenceStep_new_rival heard entry other new, Entry.silentRound_of_ge _ _ _ eighth.ge]
  · intro tag rival mismatches entry
    refine ⟨?_, State.evidenceStep_own_new_rival heard entry, ?_⟩
    · rintro rfl
      exact State.evidenceStep_own_heard heard entry
    · rintro other rfl
      exact State.evidenceStep_own_taken heard entry other

end Sys2Proof.Machine

/-! The listen channels and a valid burst: the sequence check and what follows it (R128 to R130). -/

namespace Sys2Proof.Machine

/-! ## The check itself (R128) -/

section
variable {ctx : ChannelContext} {slot : Slot} {b : Burst} {l : Listen}

/-- The detail of SEQUENCE_GAP tells how many bursts are missing: it is never 0 and it is below 16 (R128). -/
theorem gapDetail_bounds {q sequence : BitVec 4} (differs : q ≠ sequence) :
    1 ≤ ((sequence - q).setWidth 16).toNat ∧ ((sequence - q).setWidth 16).toNat ≤ 15 := by
  have nonzero : (sequence - q).toNat ≠ 0 := by bv_omega
  rw [BitVec.toNat_setWidth_of_le (by omega)]
  omega

theorem Listen.gap_of_differs {q : BitVec 4} (expects : l.expected = some q) (differs : q ≠ b.sequence) :
    l.gap ctx slot b = [{
      kind := .sequenceGap, channel := some ctx.channel, slot := some slot, station := some b.owner,
      tag := some b.tag, detail := (b.sequence - q).setWidth 16, stamp := 0 }] := by
  simp only [Listen.gap, expects, if_neg differs.symm, event, BitVec.ofNat_toNat]

theorem Listen.gap_of_agrees (agrees : l.expected = none ∨ l.expected = some b.sequence) :
    l.gap ctx slot b = [] := by
  rcases agrees with absent | same
  · simp only [Listen.gap, absent]
  · simp only [Listen.gap, same, if_true]

end

/-! ## An episode's end and a burst kept or dropped (R129, R130) -/

section
variable (ctx : ChannelContext) (slot : Slot) (b : Burst) (l : Listen)

@[simp] theorem Listen.endEpisode_expected : (l.endEpisode ctx).chan.expected = l.expected := by
  rw [Listen.endEpisode]
  split <;> rfl

/-- An episode ends with no record but its own (R130). -/
theorem Listen.endEpisode_kind : ∀ r ∈ (l.endEpisode ctx).records, r.kind = .dropEpisode := by
  rw [Listen.endEpisode]
  split
  · simp
  · simp [Out.record, event]

@[simp] theorem Listen.accept_expected : (l.accept ctx b).chan.expected = l.expected := by
  simp [Listen.accept]

/-- A burst that is kept makes no record but that of the episode it ends (R129, R130). -/
@[simp] theorem Listen.accept_records : (l.accept ctx b).records = (l.endEpisode ctx).records := by
  simp [Listen.accept, Out.andThen, Out.mapChan]

@[simp] theorem Listen.drop_expected : (l.drop slot b).expected = l.expected := rfl

/-- What becomes of the words of a burst whose sequence has been checked: FILL and an empty burst have none, and others
join the deposit if it has room and are dropped if not (R129). -/
def Listen.keep : Out Listen :=
  if b.kind == .fill || b.words.isEmpty then Out.only l
  else if l.state == .receiving && b.words.length ≤ l.room then l.accept ctx b
  else Out.only (l.drop slot b)

/-- The three things `keep` can do. -/
theorem Listen.keep_cases :
    l.keep ctx slot b = Out.only l ∨ l.keep ctx slot b = l.accept ctx b ∨
      l.keep ctx slot b = Out.only (l.drop slot b) := by
  rw [Listen.keep]
  split
  · exact .inl rfl
  · split
    · exact .inr (.inl rfl)
    · exact .inr (.inr rfl)

@[simp] theorem Listen.keep_expected : (l.keep ctx slot b).chan.expected = l.expected := by
  rcases l.keep_cases ctx slot b with nothing | kept | dropped
  · rw [nothing, Out.only_chan]
  · rw [kept, Listen.accept_expected]
  · rw [dropped, Out.only_chan, Listen.drop_expected]

theorem Listen.keep_kind : ∀ r ∈ (l.keep ctx slot b).records, r.kind = .dropEpisode := by
  rcases l.keep_cases ctx slot b with nothing | kept | dropped
  · simp [nothing]
  · rw [kept, Listen.accept_records]
    exact l.endEpisode_kind ctx
  · simp [dropped]

end

/-! ## A burst of the channel's slot and tag (R127) -/

section
variable {ctx : ChannelContext} {slot : Slot} {b : Burst} {l : Listen}

theorem Listen.keep_of_wordless (wordless : b.kind = .fill ∨ b.words = []) : l.keep ctx slot b = Out.only l := by
  rw [Listen.keep, if_pos (by simpa using wordless)]

/-- The channel checks the sequence, then keeps or drops the words (R127, R128). -/
theorem Listen.take_of_reached (bound : l.bound = some slot) (tag : l.tag = some b.tag)
    (unhalted : l.state = .receiving ∨ l.state = .starved) :
    Listen.take ctx slot b l =
      { Out.only { l with expected := some (b.sequence + 1) } with records := l.gap ctx slot b }.andThen
        (Listen.keep ctx slot b) :=
  if_pos ⟨bound, tag, unhalted⟩

end

/-- Settles O31: the records of a burst are those of the check, SEQUENCE_GAP or none, and then those of keeping its
words, of which none is SEQUENCE_GAP and which leave what is expected as the check set it. -/
theorem sequenceIsChecked : Obligations.SequenceIsChecked := by
  intro ctx slot b l bound tag unhalted
  rw [Listen.take_of_reached bound tag unhalted]
  refine ⟨?_, fun q expects differs => ⟨?_, rfl, gapDetail_bounds differs⟩, fun agrees r made => ?_, fun wordless => ?_⟩
  · rw [Out.andThen_chan, Listen.keep_expected]
    rfl
  · rw [Listen.gap_of_differs expects differs]
    rfl
  · rw [Listen.gap_of_agrees agrees] at made
    rw [Listen.keep_kind ctx slot b _ r made]
    decide
  · rw [Out.andThen_of_only (Listen.keep_of_wordless wordless)]
    exact ⟨rfl, rfl, rfl, rfl⟩

end Sys2Proof.Machine

/-! The event queue: which records are recorded and where they go (R165 to R168), what a pop hands over and leaves (R169,
R170), and how the head words spell a record (R176, R177). -/

namespace Sys2Proof.Machine

/-! ## A record made (R165 to R168) -/

section
variable {s : State} {r : EventRecord}

/-- With a START record the mask decides by the kind's class (R166). -/
theorem State.records_of_start {record : StartRecord} (h : s.stc.start = some record) (kind : EventKind) :
    s.records kind = record.mask.chooses kind.cls := by
  simp only [State.records, h]

/-- With no START record every class is recorded (R166). -/
theorem State.records_of_no_start (h : s.stc.start = none) (kind : EventKind) : s.records kind = true := by
  simp only [State.records, h]

/-- A recorded record joins a queue that has a place (R165, R167). -/
theorem State.post_of_place (recorded : s.records r.kind = true) (place : s.evq.queue.length < 32) :
    s.post r = s.setEvq { s.evq with queue := s.evq.queue ++ [{ r with stamp := s.stamp }] } := by
  rw [State.post_of_recorded recorded, State.enter_of_place place]

/-- A recorded record is dropped and counted at a full queue (R168). -/
theorem State.post_of_full (recorded : s.records r.kind = true) (full : 32 ≤ s.evq.queue.length) :
    s.post r = (s.setEvq { s.evq with dropped := countUp 65535 s.evq.dropped 1 }).setFlags
      { s.hpt.flags with eventOverflow := true } := by
  rw [State.post_of_recorded recorded, State.enter_of_full full]

end

/-! ## The pop (R169, R170) -/

/-- EVENTS_LOST as a pop of this state makes it: the dropped count and the round stamp (R170). -/
def State.lostRecord (s : State) : EventRecord := { event .eventsLost s.evq.dropped with stamp := s.stamp }

section
variable {s : State} {r : EventRecord} {rest : List EventRecord}

theorem exec_pop (s : State) : exec .pop s = .next s.popRecord := rfl

theorem State.popRecord_empty (released : s.rstHeld = false) (empty : s.evq.queue = []) :
    s.popRecord = s.setEvq { s.evq with head := .nothing } := by
  simp [State.popRecord, released, empty]

theorem State.popRecord_none_dropped (released : s.rstHeld = false) (queue : s.evq.queue = r :: rest)
    (kept : s.evq.dropped = 0) : s.popRecord = s.setEvq { queue := rest, dropped := 0, head := r } := by
  simp [State.popRecord, released, queue, kept]

/-- EVENTS_LOST takes the place that the pop frees (R170). -/
theorem State.popRecord_dropped (released : s.rstHeld = false) (queue : s.evq.queue = r :: rest)
    (lost : 0 < s.evq.dropped) :
    s.popRecord = s.setEvq { queue := rest ++ [s.lostRecord], dropped := 0, head := r } := by
  simp [State.popRecord, released, queue, lost.ne', State.lostRecord]

/-- A pop hands over the oldest record, whether or not records have been dropped (R169). -/
theorem State.popRecord_head (released : s.rstHeld = false) (queue : s.evq.queue = r :: rest) :
    s.popRecord.evq.head = r := by
  rcases Nat.eq_zero_or_pos s.evq.dropped with kept | lost
  · rw [State.popRecord_none_dropped released queue kept]
    rfl
  · rw [State.popRecord_dropped released queue lost]
    rfl

/-- The queue a pop leaves after drops: as long as before, EVENTS_LOST last, and the count back at 0 (R170). -/
theorem State.popRecord_queue_of_dropped (released : s.rstHeld = false) (nonempty : s.evq.queue ≠ [])
    (lost : 0 < s.evq.dropped) :
    s.popRecord.evq.queue.length = s.evq.queue.length ∧ s.popRecord.evq.dropped = 0 ∧
      s.popRecord.evq.queue.getLast? = some s.lostRecord := by
  obtain ⟨r, rest, queue⟩ := List.exists_cons_of_ne_nil nonempty
  rw [State.popRecord_dropped released queue lost]
  simp [queue]

theorem State.popRecord_stc (s : State) : s.popRecord.stc = s.stc := by
  unfold State.popRecord
  split
  · rfl
  · split
    · rfl
    · split <;> rfl

/-- A record made just after a pop at a full queue is dropped and counted anew: EVENTS_LOST has the place (R170). -/
theorem State.post_popRecord_of_full (released : s.rstHeld = false) (full : s.evq.queue.length = 32)
    (lost : 0 < s.evq.dropped) (recorded : s.records r.kind = true) :
    s.popRecord.evq.queue.length = 32 ∧ (s.popRecord.post r).evq.queue = s.popRecord.evq.queue ∧
      (s.popRecord.post r).evq.dropped = 1 := by
  have nonempty : s.evq.queue ≠ [] := List.ne_nil_of_length_pos (by omega)
  obtain ⟨length, reset, -⟩ := State.popRecord_queue_of_dropped released nonempty lost
  have still : s.popRecord.records r.kind = true := by
    rw [State.records_congr (congrArg Stc.start s.popRecord_stc), recorded]
  rw [State.post_of_full still (length.trans full).ge]
  exact ⟨length.trans full, rfl, by simp [reset, countUp]⟩

/-- A record made just before a pop at a full queue is counted in the EVENTS_LOST of that pop (R170). -/
theorem State.popRecord_post_of_full (released : s.rstHeld = false) (full : s.evq.queue.length = 32)
    (recorded : s.records r.kind = true) (below : s.evq.dropped < 65535) :
    (s.post r).popRecord.evq.queue.length = 32 ∧ (s.post r).popRecord.evq.dropped = 0 ∧
      (s.post r).popRecord.evq.queue.getLast?.map EventRecord.detail =
        some (BitVec.ofNat 16 (s.evq.dropped + 1)) := by
  have posted := State.post_of_full recorded full.ge
  have queue : (s.post r).evq.queue = s.evq.queue := by rw [posted]; rfl
  have dropped : (s.post r).evq.dropped = s.evq.dropped + 1 := by
    rw [posted]
    exact Nat.min_eq_right below
  have nonempty : (s.post r).evq.queue ≠ [] := List.ne_nil_of_length_pos (by rw [queue]; omega)
  obtain ⟨length, reset, last⟩ := State.popRecord_queue_of_dropped
    ((s.post_rstHeld r).trans released) nonempty (by omega)
  refine ⟨by rw [length, queue, full], reset, ?_⟩
  rw [last, ← dropped]
  rfl

end

/-- Writes to the head words and the pop word are ignored (R176). -/
theorem exec_windowWriteIgnored_head (s : State) {index : BitVec 7} (value : Word) (first : 9 ≤ index.toNat)
    (last : index.toNat ≤ 13) : exec (.windowWriteIgnored index value) s = .next s := by
  have ignored : s.windowWrite index value = s := by
    simp only [State.windowWrite]
    split
    · rfl
    · rw [if_neg (by omega), if_neg (by omega), dif_neg (by omega), dif_neg (by omega)]
  exact congrArg _ ignored

/-! ## The head words in the window (R175) -/

theorem State.windowRead_head (s : State) (j : Fin 4) :
    s.windowRead (BitVec.ofNat 7 (9 + j.val)) = s.evq.head.headWord j := by
  fin_cases j <;> rfl

/-- The read of the pop word gives the first word of the record that the pop hands over (R169). -/
theorem State.windowRead_pop (s : State) : s.windowRead 13 = s.popRecord.evq.head.headWord 0 := rfl

/-! ## Fields of a word (R177) -/

theorem place_getLsbD (value shift i : Nat) :
    (place value shift).getLsbD i = (decide (i < 32) && (decide (shift ≤ i) && value.testBit (i - shift))) := by
  unfold place
  rw [BitVec.getLsbD_shiftLeft, BitVec.getLsbD_ofNat]
  grind

/-- A field is read back at the bits where it is placed (R177). -/
theorem extract_place_same {value shift len : Nat} (inside : shift + len ≤ 32) :
    (place value shift).extractLsb' shift len = BitVec.ofNat len value := by
  refine BitVec.eq_of_getLsbD_eq fun i hi => ?_
  rw [BitVec.getLsbD_extractLsb', place_getLsbD, BitVec.getLsbD_ofNat]
  simp [hi, show shift + i < 32 by omega]

/-- Only higher bits of the word hold this field. -/
theorem extract_place_below {value shift start len : Nat} (below : start + len ≤ shift) :
    (place value shift).extractLsb' start len = 0#len := by
  refine BitVec.eq_of_getLsbD_eq fun i hi => ?_
  rw [BitVec.getLsbD_extractLsb', place_getLsbD]
  simp [show ¬ shift ≤ start + i by omega]

/-- Only lower bits of the word hold this field. -/
theorem extract_place_above {value shift start len : Nat} (above : shift ≤ start)
    (fits : value < 2 ^ (start - shift)) : (place value shift).extractLsb' start len = 0#len := by
  refine BitVec.eq_of_getLsbD_eq fun i hi => ?_
  have zero : value.testBit (start + i - shift) = false :=
    Nat.testBit_lt_two_pow (fits.trans_le (Nat.pow_le_pow_right (by decide) (by omega)))
  rw [BitVec.getLsbD_extractLsb', place_getLsbD, zero]
  simp

/-- One bit of a word is the field of width 1 at it. -/
theorem getLsbD_eq_extract (w : Word) (i : Nat) : w.getLsbD i = (w.extractLsb' i 1).getLsbD 0 := by
  simp

/-- A presence bit reads back as the flag it was placed for. -/
theorem ofNat_toNat_getLsbD (b : Bool) : (BitVec.ofNat 1 b.toNat).getLsbD 0 = b := by
  cases b <;> rfl

/-! ## The layout of a record (R177) -/

theorem EventKind.code_lt (kind : EventKind) : kind.code < 256 := by
  cases kind <;> decide

theorem EventClass.code_lt (c : EventClass) : c.code < 8 := by
  cases c <;> decide

theorem optionVal_lt {n : Nat} (o : Option (Fin (n + 1))) : (o.map Fin.val).getD 0 < n + 1 := by
  cases o with
  | none => exact n.succ_pos
  | some x => exact x.isLt

theorem ofNat_optionTag (tag : Option Tag) : BitVec.ofNat 8 ((tag.map BitVec.toNat).getD 0) = tag.getD 0 := by
  cases tag with
  | none => rfl
  | some t => exact (BitVec.ofNat_toNat 8 t).trans t.setWidth_eq

/-- The record of an empty pop reads 0 in the pop word (R169). -/
theorem EventRecord.nothing_head0 : EventRecord.nothing.headWord 0 = 0 := by decide

namespace EventRecord
variable (r : EventRecord)

/-- Every part of head word 0 stays within its bits. -/
theorem head0_bounds : r.kind.code < 256 ∧ r.kind.cls.code < 8 ∧ r.channel.isSome.toNat < 2 ∧
    r.slot.isSome.toNat < 2 ∧ r.station.isSome.toNat < 2 ∧ r.tag.isSome.toNat < 2 :=
  ⟨r.kind.code_lt, r.kind.cls.code_lt, Bool.toNat_lt _, Bool.toNat_lt _, Bool.toNat_lt _, Bool.toNat_lt _⟩

/-- A field of head word 0, part by part. -/
theorem head0_extract (start len : Nat) : r.head0.extractLsb' start len =
    (place r.kind.code 0).extractLsb' start len ||| (place r.kind.cls.code 8).extractLsb' start len |||
      (place r.channel.isSome.toNat 16).extractLsb' start len ||| (place r.slot.isSome.toNat 17).extractLsb' start len |||
      (place r.station.isSome.toNat 18).extractLsb' start len ||| (place r.tag.isSome.toNat 19).extractLsb' start len := by
  simp only [head0, placeBit, BitVec.extractLsb'_or]

theorem head0_kind : r.head0.extractLsb' 0 8 = BitVec.ofNat 8 r.kind.code := by
  simp (disch := omega) only [head0_extract, extract_place_same, extract_place_below, BitVec.or_zero]

theorem head0_class : r.head0.extractLsb' 8 3 = BitVec.ofNat 3 r.kind.cls.code := by
  have := r.head0_bounds
  simp (disch := omega) only [head0_extract, extract_place_same, extract_place_below, extract_place_above,
    BitVec.or_zero, BitVec.zero_or]

theorem head0_presence :
    r.head0.getLsbD 16 = r.channel.isSome ∧ r.head0.getLsbD 17 = r.slot.isSome ∧
      r.head0.getLsbD 18 = r.station.isSome ∧ r.head0.getLsbD 19 = r.tag.isSome := by
  have := r.head0_bounds
  simp (disch := omega) only [getLsbD_eq_extract, head0_extract, extract_place_same, extract_place_below,
    extract_place_above, BitVec.or_zero, BitVec.zero_or, ofNat_toNat_getLsbD, and_self]

theorem head0_unused : r.head0.extractLsb' 11 5 = 0#5 ∧ r.head0.extractLsb' 20 12 = 0#12 := by
  have := r.head0_bounds
  simp (disch := omega) only [head0_extract, extract_place_below, extract_place_above, BitVec.or_zero, and_self]

/-- The channel, slot and station of head word 1 stay within their bits. -/
theorem head1_bounds : (r.channel.map Fin.val).getD 0 < 16 ∧ (r.slot.map Fin.val).getD 0 < 32 ∧
    (r.station.map Fin.val).getD 0 < 32 :=
  ⟨optionVal_lt _, optionVal_lt _, optionVal_lt _⟩

/-- A field of head word 1, part by part. -/
theorem head1_extract (start len : Nat) : r.head1.extractLsb' start len =
    (place ((r.channel.map Fin.val).getD 0) 0).extractLsb' start len |||
      (place ((r.slot.map Fin.val).getD 0) 8).extractLsb' start len |||
      (place ((r.station.map Fin.val).getD 0) 16).extractLsb' start len |||
      (place ((r.tag.map BitVec.toNat).getD 0) 24).extractLsb' start len := by
  simp only [head1, BitVec.extractLsb'_or]

theorem head1_values :
    (r.head1.extractLsb' 0 4).toNat = (r.channel.map Fin.val).getD 0 ∧
      (r.head1.extractLsb' 8 5).toNat = (r.slot.map Fin.val).getD 0 ∧
      (r.head1.extractLsb' 16 5).toNat = (r.station.map Fin.val).getD 0 ∧
      r.head1.extractLsb' 24 8 = r.tag.getD 0 := by
  have := r.head1_bounds
  simp (disch := omega) only [head1_extract, extract_place_same, extract_place_below, extract_place_above,
    BitVec.or_zero, BitVec.zero_or, BitVec.toNat_ofNat, Nat.mod_eq_of_lt, ofNat_optionTag, and_self]

theorem head1_unused :
    r.head1.extractLsb' 4 4 = 0#4 ∧ r.head1.extractLsb' 13 3 = 0#3 ∧ r.head1.extractLsb' 21 3 = 0#3 := by
  have := r.head1_bounds
  simp (disch := omega) only [head1_extract, extract_place_below, extract_place_above, BitVec.or_zero, and_self]

end EventRecord

/-- Half a word holds 16 bits, and the other half reads 0. -/
theorem place_half (x : BitVec 16) :
    (place x.toNat 0).extractLsb' 0 16 = x ∧ (place x.toNat 0).extractLsb' 16 16 = 0 :=
  ⟨(extract_place_same (by decide)).trans ((BitVec.ofNat_toNat 16 x).trans x.setWidth_eq),
    extract_place_above (by decide) x.isLt⟩

/-! ## Every reset (R38 to R40) -/

theorem exec_resets_head {s t : State}
    (h : exec .powerOnReset s = .next t ∨ exec .rstNAssert s = .next t ∨
      (s.rstHeld = false ∧ exec .reset s = .next t)) : t.evq.head = .nothing := by
  rcases h with powerOn | pin | ⟨released, command⟩
  · cases powerOn
    rfl
  · cases pin
    rfl
  · rw [exec_reset_of_released released] at command
    cases command
    rfl

/-! ## The queue, the pop and the head words (R165 to R170, R176, R177) -/

/-- Settles O19: a record made, by whether it is recorded and whether the queue has a place; a pop, by whether the queue
holds a record and whether any was dropped; a record made after or before a pop at a full queue; and the head words
field by field. -/
theorem popHandsOverTheOldestRecord : Obligations.PopHandsOverTheOldestRecord := by
  refine ⟨fun s r => ⟨fun record started => ?_, fun absent => State.records_of_no_start absent _, State.post_of_masked,
    State.post_of_place, State.post_of_full⟩, fun s released => ⟨fun empty => ?_, fun r rest queue => ?_,
    fun r t full lost recorded => ⟨fun popped => ?_, fun below popped => ?_⟩,
    fun index value => exec_windowWriteIgnored_head s value⟩, State.windowRead_head, fun r => ?_,
    fun s t => exec_resets_head⟩
  · rw [State.records_of_start started]
    cases r.kind <;> rfl
  · rw [State.windowRead_pop, exec_pop, State.popRecord_empty released empty]
    exact ⟨rfl, EventRecord.nothing_head0⟩
  · rw [State.windowRead_pop, State.popRecord_head released queue, exec_pop]
    exact ⟨rfl, fun kept => congrArg _ (State.popRecord_none_dropped released queue kept),
      fun lost => congrArg _ (State.popRecord_dropped released queue lost)⟩
  · cases popped
    exact State.post_popRecord_of_full released full lost recorded
  · cases popped
    exact State.popRecord_post_of_full released full recorded below
  · obtain ⟨channelBit, slotBit, stationBit, tagBit⟩ := r.head0_presence
    obtain ⟨reserved, high⟩ := r.head0_unused
    obtain ⟨channel, slot, station, tag⟩ := r.head1_values
    obtain ⟨gap4, gap13, gap21⟩ := r.head1_unused
    obtain ⟨detail, detailHigh⟩ := place_half r.detail
    obtain ⟨stamp, stampHigh⟩ := place_half r.stamp
    exact ⟨r.head0_kind.trans (by cases r.kind <;> rfl), r.head0_class.trans (by cases r.kind <;> rfl), reserved,
      channelBit, slotBit, stationBit, tagBit, high, channel, gap4, slot, gap13, station, gap21, tag,
      detail, detailHigh, stamp, stampHigh⟩

end Sys2Proof.Machine

/-! The ring law and the room of staging and deposit, event by event of one channel (R88, R93, R102, R105, R108, R122,
R129): each event of a talk and of a listen channel keeps both. -/

namespace Sys2Proof.Machine

/-! ## The live entries of a request list (R93, R108) -/

/-- The fetches that are not stale. -/
def liveFetches (es : List RequestEntry) : List RequestEntry :=
  es.filter fun e => e.purpose == .descFetch && !e.stale

/-- The words of the data reads that are not stale. -/
def wordsToCome (es : List RequestEntry) : Nat :=
  ((es.filter fun e => e.purpose == .dataRead && !e.stale).map RequestEntry.words).sum

theorem Talk.reading_eq (t : Talk) : t.reading = wordsToCome t.requests := rfl

theorem liveFetches_append (a b : List RequestEntry) : liveFetches (a ++ b) = liveFetches a ++ liveFetches b :=
  List.filter_append ..

theorem wordsToCome_append (a b : List RequestEntry) : wordsToCome (a ++ b) = wordsToCome a + wordsToCome b := by
  simp [wordsToCome]

theorem liveFetches_cons_of_not {e : RequestEntry} {es : List RequestEntry}
    (h : e.stale = true ∨ e.purpose ≠ .descFetch) : liveFetches (e :: es) = liveFetches es :=
  List.filter_cons_of_neg (by rcases h with h | h <;> simp [h])

theorem liveFetches_cons_of_live {e : RequestEntry} {es : List RequestEntry} (hs : e.stale = false)
    (hp : e.purpose = .descFetch) : liveFetches (e :: es) = e :: liveFetches es :=
  List.filter_cons_of_pos (by simp [hs, hp])

theorem wordsToCome_tail_le (e : RequestEntry) (es : List RequestEntry) : wordsToCome es ≤ wordsToCome (e :: es) := by
  unfold wordsToCome
  rw [List.filter_cons]
  split <;> simp

theorem wordsToCome_cons_of_live {e : RequestEntry} {es : List RequestEntry} (hs : e.stale = false)
    (hp : e.purpose = .dataRead) : wordsToCome (e :: es) = e.words + wordsToCome es := by
  simp [wordsToCome, hs, hp]

/-- A rewind, a halt or a CLOSE leaves no fetch that is not stale (R109, R132). -/
theorem liveFetches_stalable (es : List RequestEntry) : liveFetches (markStale RequestEntry.isStalable es) = [] := by
  refine List.filter_eq_nil_iff.mpr fun e he => ?_
  obtain ⟨x, -, rfl⟩ := List.mem_map.mp he
  by_cases writeback : x.purpose = .writeback <;> simp [RequestEntry.isStalable, writeback]

theorem wordsToCome_stalable (es : List RequestEntry) : wordsToCome (markStale RequestEntry.isStalable es) = 0 := by
  unfold wordsToCome
  rw [List.filter_eq_nil_iff.mpr]
  · rfl
  intro e he
  obtain ⟨x, -, rfl⟩ := List.mem_map.mp he
  by_cases writeback : x.purpose = .writeback <;> simp [RequestEntry.isStalable, writeback]

/-- A failed read leaves no data read that is not stale (R101). -/
theorem wordsToCome_reads_stale (es : List RequestEntry) :
    wordsToCome (markStale (fun e => e.purpose == .dataRead) es) = 0 := by
  unfold wordsToCome
  rw [List.filter_eq_nil_iff.mpr]
  · rfl
  intro e he
  obtain ⟨x, -, rfl⟩ := List.mem_map.mp he
  by_cases read : x.purpose = .dataRead <;> simp [read]

theorem liveFetches_reads_stale (es : List RequestEntry) :
    liveFetches (markStale (fun e => e.purpose == .dataRead) es) = liveFetches es := by
  induction es with
  | nil => rfl
  | cons e es ih =>
    have step : liveFetches (markStale (fun e => e.purpose == .dataRead) (e :: es)) =
        liveFetches (e :: markStale (fun e => e.purpose == .dataRead) es) := by
      by_cases read : e.purpose = .dataRead <;> simp [markStale, liveFetches, read]
    have head : ∀ l, liveFetches (e :: l) = liveFetches [e] ++ liveFetches l := liveFetches_append [e]
    rw [step, head, ih, ← head]

/-! ## The ring law (R88, R93) -/

/-- The law of what is taken (R88, R93). -/
def Ring.orderly (r : Ring) : Prop :=
  r.taken ≤ r.count ∧ (r.ahead.isSome = true → (heldOf r.current).isSome = true)

/-- The law of the fetches that are not stale (R93). -/
def Ring.awaits (r : Ring) (fetches : List RequestEntry) : Prop :=
  fetches.length ≤ 1 ∧ ∀ e ∈ fetches,
    (e.index = r.ci ∧ r.current = some .fetching) ∨ (e.index = r.ci + 1 ∧ r.ahead = some .fetching)

theorem ChannelCore.lawful_iff (c : ChannelCore) :
    c.lawful ↔ c.ring.orderly ∧ c.ring.awaits (liveFetches c.requests) := by
  simp only [lawful, Ring.orderly, Ring.awaits, liveFetches, List.mem_filter, Bool.and_eq_true, beq_iff_eq,
    Bool.not_eq_true', and_assoc, and_imp]

theorem Ring.awaits_nil (r : Ring) : r.awaits [] := by simp [Ring.awaits]

theorem Ring.awaits.sublist {r : Ring} {a b : List RequestEntry} (h : r.awaits b) (sub : a.Sublist b) :
    r.awaits a :=
  ⟨sub.length_le.trans h.1, fun e he => h.2 e (sub.subset he)⟩

theorem RingIndex.succ_ne (i : RingIndex) : i + 1 ≠ i := by
  simp

/-- CI one further, one descriptor fewer is valid (R87). -/
theorem Ring.count_succ (fi ci : RingIndex) (h : 0 < (fi - ci).val) : (fi - (ci + 1)).val + 1 = (fi - ci).val := by
  rw [Fin.val_sub] at h
  rw [Fin.val_sub, Fin.val_sub, Fin.val_add]
  simp only [Fin.val_one] at *
  omega

/-- Nothing is taken and no fetch or data read is left that is not stale. -/
structure ChannelCore.Dropped (c : ChannelCore) : Prop where
  current : c.ring.current = none
  ahead : c.ring.ahead = none
  fetches : liveFetches c.requests = []
  reads : wordsToCome c.requests = 0

theorem ChannelCore.Dropped.lawful {c : ChannelCore} (h : c.Dropped) : c.lawful := by
  rw [lawful_iff, h.fetches]
  exact ⟨⟨by simp [Ring.taken, h.current, h.ahead], by simp [h.ahead]⟩, Ring.awaits_nil _⟩

/-- A writeback is neither a fetch nor a read. -/
theorem ChannelCore.writeback_live (ctx : ChannelContext) (c : ChannelCore) (index : RingIndex)
    (result : WritebackResult) (n : Nat) (event : Bool) (sequence : Option (BitVec 4)) :
    liveFetches (c.writeback ctx index result n event sequence).chan.requests = liveFetches c.requests ∧
      wordsToCome (c.writeback ctx index result n event sequence).chan.requests = wordsToCome c.requests := by
  unfold writeback request
  simp [liveFetches_append, wordsToCome_append]
  simp [liveFetches, wordsToCome]

theorem ChannelCore.Dropped.of_stale (c : ChannelCore) (r : Ring) (hc : r.current = none) (ha : r.ahead = none) :
    Dropped { ring := r, requests := markStale RequestEntry.isStalable c.requests } :=
  ⟨hc, ha, liveFetches_stalable _, wordsToCome_stalable _⟩

/-- Entering HALTED drops what was taken (R102). -/
theorem ChannelCore.halt_dropped (ctx : ChannelContext) (c : ChannelCore) (reason : HaltReason)
    (sequence : Option (BitVec 4)) : (c.halt ctx reason sequence).chan.Dropped := by
  have written : ∀ (index : RingIndex) (result : WritebackResult) (n : Nat) (event : Bool) (q : Option (BitVec 4)) (r : Ring),
      r.current = none → r.ahead = none →
      Dropped { ({ c with requests := markStale RequestEntry.isStalable c.requests } : ChannelCore).writeback ctx
        index result n event q |>.chan with ring := r } := fun index result n event q r hc ha => by
    obtain ⟨fetches, reads⟩ := ({ c with requests := markStale RequestEntry.isStalable c.requests } :
      ChannelCore).writeback_live ctx index result n event q
    exact ⟨hc, ha, fetches.trans (liveFetches_stalable _), reads.trans (wordsToCome_stalable _)⟩
  unfold halt
  dsimp only
  split
  · exact written _ _ _ _ _ _ rfl rfl
  · exact .of_stale _ _ rfl rfl
  · exact .of_stale _ _ rfl rfl
  · split
    · exact written _ _ _ _ _ _ rfl rfl
    · exact written _ _ _ _ _ _ rfl rfl
    all_goals exact .of_stale _ _ rfl rfl
  · split
    · exact written _ _ _ _ _ _ rfl rfl
    · exact written _ _ _ _ _ _ rfl rfl
    all_goals exact .of_stale _ _ rfl rfl

/-- A CLOSE drops what was taken (R104). -/
theorem ChannelCore.close_dropped (ctx : ChannelContext) (c : ChannelCore) (sequence : Option (BitVec 4)) :
    (c.close ctx sequence).chan.Dropped := by
  unfold close
  dsimp only
  split
  · obtain ⟨fetches, reads⟩ := ({ c with requests := markStale RequestEntry.isStalable c.requests } :
      ChannelCore).writeback_live ctx c.ring.ci .partialUse c.ring.position (eventOf c.ring.current) sequence
    exact ⟨rfl, rfl, fetches.trans (liveFetches_stalable _), reads.trans (wordsToCome_stalable _)⟩
  · exact .of_stale _ _ rfl rfl

/-- The oldest entry leaves the list (R109, R132). -/
theorem ChannelCore.lawful.tail {r : Ring} {e : RequestEntry} {es : List RequestEntry}
    (h : ChannelCore.lawful ⟨r, e :: es⟩) : ChannelCore.lawful ⟨r, es⟩ := by
  rw [lawful_iff] at h ⊢
  exact ⟨h.1, h.2.sublist ((List.sublist_cons_self e es).filter _)⟩

/-- A fetch that is not stale is answered: no other is left, and its descriptor is the one in FETCHING (R93). -/
theorem ChannelCore.lawful.answered {r : Ring} {e : RequestEntry} {es : List RequestEntry}
    (h : ChannelCore.lawful ⟨r, e :: es⟩) (hs : e.stale = false) (hp : e.purpose = .descFetch) :
    liveFetches es = [] ∧ ((e.index = r.ci ∧ r.current = some .fetching) ∨
      (e.index = r.ci + 1 ∧ r.ahead = some .fetching)) := by
  obtain ⟨-, one, places⟩ := (lawful_iff _).mp h
  dsimp only at one places
  rw [liveFetches_cons_of_live hs hp] at one places
  exact ⟨List.length_eq_zero_iff.mp (by simpa using one), places e List.mem_cons_self⟩

/-- What a fetch of the current brings keeps the law, whatever it is. -/
theorem ChannelCore.lawful.setCurrent {r : Ring} {es : List RequestEntry} (h : r.orderly)
    (fetching : r.current = some .fetching) (none : liveFetches es = []) (x : Taken) :
    ChannelCore.lawful ⟨{ r with current := some x }, es⟩ := by
  obtain ⟨fits, held⟩ := h
  have ahead : r.ahead = Option.none := by
    rw [← Option.not_isSome_iff_eq_none]
    intro present
    simpa [fetching, heldOf] using held present
  rw [lawful_iff, none]
  exact ⟨⟨by simpa [Ring.taken, Ring.count, fetching] using fits, by simp [ahead]⟩, Ring.awaits_nil _⟩

/-- What a fetch of the ahead brings keeps the law, whatever it is. -/
theorem ChannelCore.lawful.setAhead {r : Ring} {es : List RequestEntry} (h : r.orderly)
    (present : r.ahead.isSome = true) (none : liveFetches es = []) (x : Taken) :
    ChannelCore.lawful ⟨{ r with ahead := some x }, es⟩ := by
  obtain ⟨fits, held⟩ := h
  rw [lawful_iff, none]
  exact ⟨⟨by simpa [Ring.taken, Ring.count, present] using fits, fun _ => held present⟩, Ring.awaits_nil _⟩

theorem liveFetches_eq_nil_of_not {c : ChannelCore} (h : c.liveFetch = false) : liveFetches c.requests = [] := by
  refine List.filter_eq_nil_iff.mpr fun e he live => ?_
  have := List.any_eq_false.mp h e he
  exact this live

/-- The list entry of a fetch (R93, R98). -/
def ChannelCore.fetchEntry (_ : ChannelCore) (index : RingIndex) : RequestEntry :=
  { purpose := .descFetch, stale := false, index, words := 2, ok := false, event := false }

theorem ChannelCore.fetch_requests (ctx : ChannelContext) (c : ChannelCore) (index : RingIndex) :
    (c.fetch ctx index).chan.requests = c.requests ++ [c.fetchEntry index] := rfl

/-- Making the current's fetch keeps the law (R93). -/
theorem ChannelCore.fetchCurrent_lawful (ctx : ChannelContext) {c : ChannelCore} (h : c.lawful)
    (wanted : c.wantsCurrent = true) : (c.fetchCurrent ctx).chan.lawful := by
  obtain ⟨⟨fits, held⟩, one, places⟩ := (lawful_iff _).mp h
  have fresh : liveFetches c.requests = [] ∧ c.ring.ahead = none ∧ 1 ≤ c.ring.count := by
    simp only [wantsCurrent, Bool.or_eq_true, Bool.and_eq_true, Option.isNone_iff_eq_none, beq_iff_eq,
      decide_eq_true_eq, Bool.not_eq_true'] at wanted
    have noAhead : heldOf c.ring.current = none → c.ring.ahead = none := fun unheld => by
      rw [← Option.not_isSome_iff_eq_none]
      intro present
      simp [unheld] at held
      simp [held] at present
    rcases wanted with ⟨absent, more⟩ | ⟨fetching, dead⟩
    · have ahead := noAhead (by simp [absent, heldOf])
      refine ⟨List.eq_nil_iff_forall_not_mem.mpr fun e he => ?_, ahead, by omega⟩
      simpa [absent, ahead] using places e he
    · refine ⟨liveFetches_eq_nil_of_not dead, noAhead (by simp [fetching, heldOf]), ?_⟩
      simp only [Ring.taken, fetching, Option.isSome_some, Bool.toNat_true] at fits
      omega
  obtain ⟨dead, ahead, counted⟩ := fresh
  rw [lawful_iff]
  refine ⟨⟨?_, ?_⟩, ?_⟩
  · simpa [fetchCurrent, fetch, request, Ring.taken, ahead, Ring.count] using counted
  · simp [fetchCurrent, fetch, request, ahead]
  · have list : liveFetches (c.fetchCurrent ctx).chan.requests = [c.fetchEntry c.ring.ci] := by
      rw [fetchCurrent, fetch_requests, liveFetches_append, dead]
      rfl
    rw [list]
    exact ⟨le_rfl, by simp [fetchCurrent, fetch, request, fetchEntry]⟩

/-- Making the ahead's fetch keeps the law (R93). -/
theorem ChannelCore.fetchAhead_lawful (ctx : ChannelContext) {c : ChannelCore} (h : c.lawful)
    (wanted : c.wantsAhead = true) : (c.fetchAhead ctx).chan.lawful := by
  obtain ⟨⟨fits, -⟩, -, places⟩ := (lawful_iff _).mp h
  simp only [wantsAhead, Bool.and_eq_true, Option.isNone_iff_eq_none, decide_eq_true_eq] at wanted
  obtain ⟨⟨held, ahead⟩, more⟩ := wanted
  have unfetched : c.ring.current ≠ some .fetching := by
    intro fetching
    simp [fetching, heldOf] at held
  have dead : liveFetches c.requests = [] := List.eq_nil_iff_forall_not_mem.mpr fun e he => by
    simpa [unfetched, ahead] using places e he
  rw [lawful_iff]
  refine ⟨⟨?_, fun _ => held⟩, ?_⟩
  · simp only [Ring.taken, ahead] at more
    simp [fetchAhead, fetch, request, Ring.taken, Ring.count] at more ⊢
    omega
  · have list : liveFetches (c.fetchAhead ctx).chan.requests = [c.fetchEntry (c.ring.ci + 1)] := by
      rw [fetchAhead, fetch_requests, liveFetches_append, dead]
      rfl
    rw [list]
    exact ⟨le_rfl, by simp [fetchAhead, fetch, request, fetchEntry]⟩

/-- A request that is no fetch keeps the law. -/
theorem ChannelCore.request_lawful (ctx : ChannelContext) {c : ChannelCore} (h : c.lawful) {e : RequestEntry}
    (other : e.purpose ≠ .descFetch) (address : Word) (data : List Word) :
    (c.request ctx e address data).chan.lawful := by
  rw [lawful_iff] at h ⊢
  simpa [request, liveFetches_append, liveFetches, other] using h

/-- Completion moves the ring on: the ahead becomes the current (R97). -/
theorem ChannelCore.complete_lawful (ctx : ChannelContext) {c : ChannelCore} (h : c.lawful) {d : Descriptor}
    (held : heldOf c.ring.current = some d) (rest : Nat) (sequence : Option (BitVec 4)) :
    (c.complete ctx d rest sequence).chan.lawful := by
  obtain ⟨⟨fits, -⟩, one, places⟩ := (lawful_iff _).mp h
  obtain ⟨live, -⟩ := c.writeback_live ctx c.ring.ci .ok d.length d.event sequence
  have present : c.ring.current.isSome = true := by
    cases current : c.ring.current with
    | none => simp [current, heldOf] at held
    | some x => rfl
  have unfetched : c.ring.current ≠ some .fetching := by
    intro fetching
    simp [fetching, heldOf] at held
  have counted : 0 < (c.ring.fi - c.ring.ci).val := by
    simp only [Ring.taken, Ring.count, present, Bool.toNat_true] at fits
    omega
  have next := Ring.count_succ _ _ counted
  rw [lawful_iff]
  refine ⟨⟨?_, by simp [complete]⟩, ?_⟩
  · simp only [Ring.taken, Ring.count, present, Bool.toNat_true] at fits
    simp only [complete, Out.mapChan_chan, Ring.taken, Ring.count, writeback, request, Out.only_chan,
      Option.isSome_none, Bool.toNat_false]
    omega
  · refine ⟨?_, fun e he => ?_⟩
    · exact (congrArg List.length live).trans_le one
    · have he' : e ∈ liveFetches c.requests := live ▸ he
      rcases places e he' with ⟨-, fetching⟩ | ⟨index, ahead⟩
      · exact absurd fetching unfetched
      · exact .inl ⟨index, ahead⟩

/-! ## Talk channels -/

/-- Staging with the words that are to join it has its room (R105, R108). -/
def Talk.fits (t : Talk) : Prop := t.staging.length + t.reading ≤ 16

/-- An event keeps the ring law of a talk channel and the room of its staging. -/
structure Talk.Sound (t u : Talk) : Prop where
  law : t.lawful → u.lawful
  room : t.fits → u.fits

theorem Talk.Sound.refl (t : Talk) : t.Sound t := ⟨id, id⟩

theorem Talk.Sound.trans {t u v : Talk} (h : t.Sound u) (g : u.Sound v) : t.Sound v :=
  ⟨g.law ∘ h.law, g.room ∘ h.room⟩

theorem Talk.Sound.after {t u v : Talk} (g : u.Sound v) (h : t.Sound u) : t.Sound v := h.trans g

/-- One event after another. -/
theorem Talk.Sound.andThen {t : Talk} {o : Out Talk} {f : Talk → Out Talk} (h : t.Sound o.chan)
    (g : ∀ u : Talk, u.Sound (f u).chan) : t.Sound (o.andThen f).chan := h.trans (g _)

/-- An event that happens only under a condition. -/
theorem Talk.Sound.ite {p : Prop} [Decidable p] {t : Talk} {o : Out Talk} (h : p → t.Sound o.chan) :
    t.Sound (if p then o else Out.only t).chan := by
  split
  · exact h ‹_›
  · exact .refl t

/-- Dropping what is taken and emptying staging meets both. -/
theorem Talk.Sound.of_dropped {t u : Talk} (h : u.toChannelCore.Dropped) (empty : u.staging = []) : t.Sound u :=
  ⟨fun _ => ⟨h.lawful, fun _ => h.current⟩, fun _ => by simp [Talk.fits, empty, Talk.reading_eq, h.reads]⟩

/-- Fields beside the ring, the list and staging do not matter, and neither does a state that stops less. -/
theorem Talk.Sound.of_same {t u : Talk} (core : u.toChannelCore = t.toChannelCore)
    (state : u.state = .closed ∨ u.state = .halted → t.state = .closed ∨ t.state = .halted)
    (staged : u.staging.length ≤ t.staging.length) : t.Sound u := by
  refine ⟨fun ⟨law, stopped⟩ => ⟨by rwa [core], fun h => by rw [core]; exact stopped (state h)⟩, fun room => ?_⟩
  have : u.reading = t.reading := by rw [Talk.reading_eq, Talk.reading_eq, core]
  unfold Talk.fits at room ⊢
  omega

theorem Talk.judged_stops {t : Talk} (h : t.judged = .closed ∨ t.judged = .halted) :
    t.state = .closed ∨ t.state = .halted := by
  unfold Talk.judged at h
  split at h
  case h_1 closed => exact .inl closed
  case h_2 halted => exact .inr halted
  all_goals
    split at h
    · simp at h
    · split at h <;> simp at h

theorem Talk.rejudge_sound (ctx : ChannelContext) (t : Talk) : t.Sound (t.rejudge ctx).chan := by
  rw [Talk.rejudge_chan]
  exact .of_same rfl Talk.judged_stops le_rfl

theorem Talk.walks_open {t : Talk} (h : t.walks = true) : ¬(t.state = .closed ∨ t.state = .halted) := by
  rintro (closed | halted)
  · simp [Talk.walks_of_closed closed] at h
  · simp [Talk.walks_of_halted halted] at h

theorem Talk.nextAhead_sound {ctx : ChannelContext} {t : Talk} {o : Out Talk} (runs : t.walks = true)
    (h : t.nextAhead ctx = some o) : t.Sound o.chan := by
  unfold Talk.nextAhead at h
  split at h
  case isFalse => cases h
  case isTrue wanted =>
    simp only [Bool.and_eq_true] at wanted
    cases h
    refine ⟨fun ⟨law, _⟩ => ⟨t.fetchAhead_lawful ctx law wanted.1.1, fun s => absurd s (Talk.walks_open runs)⟩,
      fun room => ?_⟩
    simpa [Talk.fits, Talk.reading_eq, Talk.withCore, ChannelCore.fetchAhead, ChannelCore.fetch, ChannelCore.request,
      wordsToCome_append, wordsToCome] using room

theorem Talk.nextRequest_sound {ctx : ChannelContext} {t : Talk} {o : Out Talk} (h : t.nextRequest ctx = some o) :
    t.Sound o.chan := by
  unfold Talk.nextRequest at h
  split at h
  case isTrue => cases h
  case isFalse may =>
    have runs : t.walks = true := by
      simp only [Bool.or_eq_true, Bool.not_eq_true', decide_eq_true_eq, not_or, Bool.not_eq_false] at may
      exact may.1
    split at h
    case isTrue wanted =>
      cases h
      refine ⟨fun ⟨law, _⟩ => ⟨t.fetchCurrent_lawful ctx law wanted, fun s => absurd s (Talk.walks_open runs)⟩,
        fun room => ?_⟩
      simpa [Talk.fits, Talk.reading_eq, Talk.withCore, ChannelCore.fetchCurrent, ChannelCore.fetch,
        ChannelCore.request, wordsToCome_append, wordsToCome] using room
    case isFalse =>
      split at h
      · dsimp only at h
        split at h
        case isTrue fits =>
          cases h
          refine ⟨fun ⟨law, _⟩ => ⟨t.toChannelCore.request_lawful ctx law Purpose.noConfusion 0 [],
            fun s => absurd s (Talk.walks_open runs)⟩, fun room => ?_⟩
          simp only [Talk.room, Config.bufferWords] at fits
          simp only [Talk.fits, Talk.reading_eq] at room fits ⊢
          simp only [Talk.read, Talk.withCore, ChannelCore.request, Out.mapChan_chan, Out.only_chan,
            wordsToCome_append]
          cases t.readsStale <;> simp [wordsToCome] at * <;> omega
        · exact Talk.nextAhead_sound runs h
      · exact Talk.nextAhead_sound runs h

theorem Talk.pumpFor_sound (ctx : ChannelContext) (n : Nat) (t : Talk) : t.Sound (t.pumpFor ctx n).chan := by
  induction n generalizing t with
  | zero => exact .refl t
  | succ n ih =>
    unfold Talk.pumpFor
    split
    · exact (Talk.nextRequest_sound ‹_›).trans (ih _)
    · exact .refl t

/-- Making the requests called for keeps the law and the room (R93, R98, R108). -/
theorem Talk.pump_sound (ctx : ChannelContext) (t : Talk) : t.Sound (t.pump ctx).chan := Talk.pumpFor_sound ctx _ t

theorem Talk.enterHalted_sound (ctx : ChannelContext) (reason : HaltReason) (t u : Talk) :
    u.Sound (t.enterHalted ctx reason).chan :=
  .of_dropped (t.toChannelCore.halt_dropped ctx reason none) rfl

theorem Talk.halt_sound (ctx : ChannelContext) (reason : HaltReason) (t : Talk) :
    t.Sound (t.halt ctx reason).chan := by
  unfold Talk.halt
  split
  · exact .of_same rfl id le_rfl
  · exact Talk.enterHalted_sound ctx reason t t

theorem Talk.takeHeldHalt_sound (ctx : ChannelContext) (t : Talk) : t.Sound (t.takeHeldHalt ctx).chan := by
  unfold Talk.takeHeldHalt
  split
  · exact .refl t
  · split
    · exact .of_same rfl id le_rfl
    · exact Talk.enterHalted_sound ctx _ t t

theorem Talk.complete_sound (ctx : ChannelContext) {d : Descriptor} (rest : Nat) {t : Talk}
    (held : heldOf t.ring.current = some d) : t.Sound (t.complete ctx d rest).chan := by
  have moved : t.Sound { t with
      toChannelCore := (t.toChannelCore.complete ctx d rest none).chan
      endWait := t.endWait || d.final
      readPoint := if t.readPoint.map Prod.fst == some t.ring.ci then some (t.ring.ci + 1, 0) else t.readPoint } := by
    refine ⟨fun ⟨law, stopped⟩ => ⟨t.complete_lawful ctx law held _ _, fun s => ?_⟩, fun room => ?_⟩
    · simp [stopped s, heldOf] at held
    · have := (t.writeback_live ctx t.ring.ci .ok d.length d.event none).2
      unfold Talk.fits at room ⊢
      rw [Talk.reading_eq] at room ⊢
      exact (congrArg (t.staging.length + ·) this).trans_le room
  unfold Talk.complete
  dsimp only
  split
  · exact moved.trans (Talk.halt_sound ctx _ _)
  · exact moved

theorem Talk.completions_sound (ctx : ChannelContext) (n : Nat) (t : Talk) :
    t.Sound (t.completions ctx n).chan := by
  induction n generalizing t with
  | zero => exact .refl t
  | succ n ih =>
    unfold Talk.completions
    split
    case h_1 d held =>
      split
      · exact (Talk.complete_sound ctx _ held).trans (ih _)
      · exact .refl t
    case h_2 => exact .refl t

/-- The position alone does not matter to the law. -/
theorem Talk.countSent_sound (t : Talk) (words : List StagedWord) : t.Sound (t.countSent words) := by
  refine ⟨fun law => law, fun room => ?_⟩
  have : (t.staging.drop words.length).length ≤ t.staging.length := by simp
  unfold Talk.fits at room ⊢
  exact (Nat.add_le_add_right this _).trans room

theorem Talk.sent_sound (ctx : ChannelContext) (t : Talk) : t.Sound (t.sent ctx).chan := by
  unfold Talk.sent
  split
  · exact .refl t
  · exact ((((t.countSent_sound _).trans (Talk.completions_sound ctx 3 _)).andThen (Talk.rejudge_sound ctx)).andThen
      (Talk.pump_sound ctx)).andThen (Talk.takeHeldHalt_sound ctx)

theorem Talk.cutOff_sound (ctx : ChannelContext) (t : Talk) : t.Sound (t.cutOff ctx).chan := by
  unfold Talk.cutOff
  split
  · exact .refl t
  · exact (Talk.takeHeldHalt_sound ctx _).after (.of_same rfl id le_rfl)

theorem Talk.bind_sound (ctx : ChannelContext) (slot : Slot) (t : Talk) : t.Sound (t.bind ctx slot).chan :=
  (Talk.rejudge_sound ctx _).after (.of_same rfl id le_rfl)

theorem Talk.unbind_sound (t : Talk) : t.Sound t.unbind := by
  refine .of_same rfl ?_ le_rfl
  unfold Talk.unbind
  dsimp only
  split <;> simp

theorem Talk.rewound_sound (t : Talk) : t.Sound t.rewound := by
  refine ⟨fun ⟨law, _⟩ => ⟨?_, by simp [Talk.rewound]⟩, fun _ => ?_⟩
  · obtain ⟨⟨taken, -⟩, -⟩ := (ChannelCore.lawful_iff _).mp law
    rw [ChannelCore.lawful_iff]
    refine ⟨⟨le_trans ?_ taken, by simp [Talk.rewound]⟩, ?_⟩
    · simp [Talk.rewound, Ring.taken]
    · have none : liveFetches t.rewound.requests = [] := liveFetches_stalable _
      rw [none]
      exact Ring.awaits_nil _
  · have none : wordsToCome t.rewound.requests = 0 := wordsToCome_stalable _
    have empty : t.rewound.staging = [] := rfl
    rw [Talk.fits, Talk.reading_eq, none, empty]
    decide

theorem Talk.loseSlot_sound (ctx : ChannelContext) (t : Talk) : t.Sound (t.loseSlot ctx).chan := by
  unfold Talk.loseSlot
  split
  · exact t.rewound_sound.trans (Talk.pump_sound ctx _)
  · exact t.unbind_sound

theorem Talk.afterBurst_sound (t : Talk) : t.Sound t.afterBurst := .of_same rfl id le_rfl

/-- A taken descriptor in FETCHING is not the ring of a stopped channel. -/
theorem Talk.lawful.running {t : Talk} (h : t.lawful) {x : Taken} (present : t.ring.current = some x) :
    ¬(t.state = .closed ∨ t.state = .halted) := fun stopped => by simp [h.2 stopped] at present

section
variable {ctx : ChannelContext} {t : Talk} {e : RequestEntry} {rest : List RequestEntry}

/-- What answers the current's or the ahead's fetch keeps the law, whatever it brings. -/
theorem Talk.lawful.fetched (h : t.lawful) (list : t.requests = e :: rest) (live : e.stale = false)
    (fetch : e.purpose = .descFetch) (x : Taken) (p : Option (RingIndex × Nat)) :
    if e.index = t.ring.ci then
      Talk.lawful { t with requests := rest, ring := { t.ring with current := some x }, readPoint := p }
    else Talk.lawful { t with requests := rest, ring := { t.ring with ahead := some x }, readPoint := p } := by
  have core : ChannelCore.lawful ⟨t.ring, e :: rest⟩ := list ▸ h.1
  obtain ⟨none, place⟩ := core.answered live fetch
  have orderly : t.ring.orderly := ((ChannelCore.lawful_iff _).mp h.1).1
  rcases place with ⟨index, fetching⟩ | ⟨index, fetching⟩
  · rw [if_pos index]
    exact ⟨.setCurrent orderly fetching none x, fun s => absurd s (h.running fetching)⟩
  · rw [if_neg (index ▸ RingIndex.succ_ne _)]
    have present : t.ring.ahead.isSome = true := by simp [fetching]
    refine ⟨.setAhead orderly present none x, fun s => ?_⟩
    have held := orderly.2 present
    simp [h.2 s, heldOf] at held

theorem Talk.fits.tail (h : t.fits) (list : t.requests = e :: rest) :
    Talk.fits { t with requests := rest } := by
  unfold Talk.fits at h ⊢
  rw [Talk.reading_eq] at h ⊢
  rw [list] at h
  exact (Nat.add_le_add_left (wordsToCome_tail_le e rest) _).trans h

theorem Talk.lawful.tail (h : t.lawful) (list : t.requests = e :: rest) :
    Talk.lawful { t with requests := rest } :=
  ⟨(show ChannelCore.lawful ⟨t.ring, e :: rest⟩ from list ▸ h.1).tail, h.2⟩

theorem Talk.tail_sound (list : t.requests = e :: rest) : t.Sound { t with requests := rest } :=
  ⟨fun h => h.tail list, fun h => h.tail list⟩

theorem Talk.fetched_sound (list : t.requests = e :: rest) (live : e.stale = false) (fetch : e.purpose = .descFetch)
    (d : Descriptor) : t.Sound (Talk.fetched ctx e.index d { t with requests := rest }).chan := by
  unfold Talk.fetched
  dsimp only
  split
  case isTrue current =>
    have law := fun (h : t.lawful) x p => by simpa [current] using h.fetched list live fetch x p
    split
    · exact ⟨fun h => law h _ _, fun h => h.tail list⟩
    · exact (Talk.halt_sound ctx _ _).after ⟨fun h => law h (.bad d) t.readPoint, fun h => h.tail list⟩
  case isFalse ahead =>
    have law := fun (h : t.lawful) x p => by simpa [ahead] using h.fetched list live fetch x p
    split
    · exact ⟨fun h => law h _ _, fun h => h.tail list⟩
    · exact ⟨fun h => law h (.bad d) t.readPoint, fun h => h.tail list⟩

theorem Talk.fetchFailed_sound (list : t.requests = e :: rest) (live : e.stale = false)
    (fetch : e.purpose = .descFetch) :
    t.Sound (Talk.fetchFailed ctx e.index { t with requests := rest }).chan := by
  unfold Talk.fetchFailed
  dsimp only
  split
  case isTrue current =>
    exact (Talk.halt_sound ctx _ _).after ⟨fun h => by
      simpa [current] using h.fetched list live fetch .fetchError t.readPoint, fun h => h.tail list⟩
  case isFalse ahead =>
    exact ⟨fun h => by simpa [ahead] using h.fetched list live fetch .fetchError t.readPoint, fun h => h.tail list⟩

/-- The words of a read join staging as they leave the words to come (R109). -/
theorem Talk.read_sound (list : t.requests = e :: rest) (live : e.stale = false) (read : e.purpose = .dataRead)
    (ws : List Word) : t.Sound { t with
      requests := rest, staging := t.staging ++ (ws.take e.words).map fun w => { index := e.index, word := w } } := by
  refine ⟨fun h => h.tail list, fun h => ?_⟩
  unfold Talk.fits at h ⊢
  rw [Talk.reading_eq] at h ⊢
  rw [list, wordsToCome_cons_of_live live read] at h
  simp only [List.length_append, List.length_map, List.length_take]
  omega

/-- A failed read makes the later reads stale, and its failure stands on the ahead or halts the channel (R101). -/
theorem Talk.readFailed_sound (index : RingIndex) : t.Sound (t.readFailed ctx index).chan := by
  have staled : t.Sound { t with requests := markStale (fun e => e.purpose == .dataRead) t.requests } := by
    refine ⟨fun ⟨law, stopped⟩ => ⟨?_, stopped⟩, fun room => ?_⟩
    · rw [ChannelCore.lawful_iff] at law ⊢
      rwa [liveFetches_reads_stale]
    · unfold Talk.fits at room ⊢
      rw [Talk.reading_eq, wordsToCome_reads_stale]
      dsimp only
      omega
  unfold Talk.readFailed
  dsimp only
  split
  · exact staled.trans (Talk.halt_sound ctx _ _)
  · split
    case h_1 d held =>
      refine staled.trans ⟨fun ⟨law, stopped⟩ => ?_, id⟩
      obtain ⟨⟨taken, current⟩, one, places⟩ := (ChannelCore.lawful_iff _).mp law
      have present : t.ring.ahead.isSome = true := by
        cases ahead : t.ring.ahead with
        | none => simp [ahead, heldOf] at held
        | some x => rfl
      have unfetched : t.ring.ahead ≠ some .fetching := by
        intro fetching
        simp [fetching, heldOf] at held
      refine ⟨(ChannelCore.lawful_iff _).mpr ⟨⟨?_, fun _ => current present⟩, one, fun e he => ?_⟩, stopped⟩
      · simpa [Ring.taken, present, Ring.count] using taken
      · rcases places e he with first | ⟨-, fetching⟩
        · exact .inl first
        · exact absurd fetching unfetched
    case h_2 => exact staled

theorem Talk.writebackFailed_sound (index : RingIndex) : t.Sound (t.writebackFailed ctx index).chan := by
  unfold Talk.writebackFailed
  dsimp only
  split
  · exact .refl t
  · exact Talk.halt_sound ctx _ t

/-- The answer to the oldest request, not stale (R109). -/
theorem Talk.judgeResponse_sound (list : t.requests = e :: rest) (live : e.stale = false)
    (words : Option (List Word)) : t.Sound (Talk.judgeResponse ctx e words { t with requests := rest }).chan := by
  have tail := t.tail_sound list
  unfold Talk.judgeResponse
  split
  case h_1 purpose => exact Talk.fetched_sound list live purpose _
  case h_2 purpose => exact Talk.fetchFailed_sound list live purpose
  case h_3 purpose => exact Talk.read_sound list live purpose _
  case h_4 => exact tail.trans (Talk.readFailed_sound _)
  case h_5 => split <;> exact tail
  case h_6 => exact tail.trans (Talk.writebackFailed_sound _)
  case h_7 => exact tail

end

theorem Talk.response_sound (ctx : ChannelContext) (words : Option (List Word)) (t : Talk) :
    t.Sound (t.response ctx words).chan := by
  unfold Talk.response
  split
  case h_1 => exact .refl t
  case h_2 e rest list =>
    dsimp only [Out.andThen_chan]
    refine .trans (.trans ?_ (Talk.rejudge_sound ctx _)) (Talk.pump_sound ctx _)
    split
    · exact t.tail_sound list
    · exact Talk.judgeResponse_sound list (by simpa using ‹¬e.stale = true›) words

/-- A CLOSED or HALTED channel has no fetch that is not stale. -/
theorem Talk.lawful.dropped {t : Talk} (h : t.lawful) (stopped : t.state = .closed ∨ t.state = .halted) :
    t.ring.current = none ∧ t.ring.ahead = none ∧ liveFetches t.requests = [] := by
  obtain ⟨⟨-, held⟩, -, places⟩ := (ChannelCore.lawful_iff _).mp h.1
  have current := h.2 stopped
  have ahead : t.ring.ahead = none := by
    rw [← Option.not_isSome_iff_eq_none]
    intro present
    simpa [current, heldOf] using held present
  exact ⟨current, ahead, List.eq_nil_iff_forall_not_mem.mpr fun e he => by
    simpa [current, ahead] using places e he⟩

theorem Talk.opened_sound (ctx : ChannelContext) (p : OpenParams) {t : Talk} (closed : t.state = .closed) :
    t.Sound (t.opened ctx p).chan := by
  refine .trans ⟨fun h => ⟨(ChannelCore.lawful_iff _).mpr ⟨⟨?_, ?_⟩, ?_⟩, by simp⟩, fun h => ?_⟩ (Talk.pump_sound ctx _)
  · simp [Ring.opened, Ring.taken]
  · simp [Ring.opened]
  · have none := (h.dropped (.inl closed)).2.2
    dsimp only
    rw [none]
    exact Ring.awaits_nil _
  · unfold Talk.fits at h ⊢
    have empty : Talk.clear.staging.length = 0 := rfl
    exact (Nat.add_le_add_right (empty ▸ Nat.zero_le _) _).trans h

/-- Only a Fill index that keeps the taken descriptors valid is taken (R90). -/
theorem Ring.taken_le_of_verdict {r : Ring} {isOpen : Bool} {fi : RingIndex} (h : r.fillVerdict isOpen fi = none) :
    isOpen = true ∧ r.taken ≤ ({ r with fi } : Ring).count := by
  unfold Ring.fillVerdict at h
  split at h
  · cases h
  · split at h
    · cases h
    · exact ⟨by simpa using ‹¬(!isOpen) = true›, by omega⟩

theorem ChannelCore.lawful.refilled {r : Ring} {es : List RequestEntry} (h : ChannelCore.lawful ⟨r, es⟩) {fi : RingIndex}
    (counted : r.taken ≤ ({ r with fi } : Ring).count) : ChannelCore.lawful ⟨{ r with fi }, es⟩ := by
  rw [lawful_iff] at h ⊢
  exact ⟨⟨counted, h.1.2⟩, h.2⟩

theorem Talk.fill_sound (ctx : ChannelContext) (fi : RingIndex) (t : Talk) : t.Sound (t.fill ctx fi).chan := by
  unfold Talk.fill
  split
  case h_1 => exact .refl t
  case h_2 verdict =>
    refine .andThen ((Talk.rejudge_sound ctx _).after ⟨fun ⟨law, stopped⟩ => ⟨?_, stopped⟩, id⟩) (Talk.pump_sound ctx)
    exact law.refilled (Ring.taken_le_of_verdict verdict).2

theorem Talk.resumed_sound (ctx : ChannelContext) (t : Talk) : t.Sound (t.resumed ctx).chan := by
  unfold Talk.resumed
  dsimp only
  split
  · exact .andThen ((Talk.rejudge_sound ctx _).after (.of_same rfl (by simp) le_rfl)) (Talk.pump_sound ctx)
  · exact .of_same rfl id le_rfl

theorem Talk.closeComplete_sound (ctx : ChannelContext) (t : Talk) : t.Sound (t.closeComplete ctx).chan :=
  .of_dropped (t.toChannelCore.close_dropped ctx none) rfl

theorem Talk.leaveLink_sound (ctx : ChannelContext) (t : Talk) : t.Sound (t.leaveLink ctx).chan :=
  (((t.cutOff_sound ctx).andThen fun u => .ite fun _ => u.loseSlot_sound ctx).andThen fun u =>
    .ite fun _ => u.resumed_sound ctx).andThen fun u => .ite fun _ => u.closeComplete_sound ctx

theorem Talk.boundary_sound (ctx : ChannelContext) (t : Talk) : t.Sound (t.boundary ctx).chan :=
  .andThen (.ite fun _ => t.resumed_sound ctx) fun u => .ite fun _ => u.closeComplete_sound ctx

end Sys2Proof.Machine

/-! The ring law and the room of the deposit, event by event of one listen channel (R88, R93, R102, R122, R129). -/

namespace Sys2Proof.Machine

/-- The deposit has its room (R122). -/
def Listen.fits (l : Listen) : Prop := l.inWrite.length + l.waiting.length ≤ 16

/-- An event keeps the ring law of a listen channel and the room of its deposit. -/
structure Listen.Sound (l m : Listen) : Prop where
  law : l.lawful → m.lawful
  room : l.fits → m.fits

theorem Listen.Sound.refl (l : Listen) : l.Sound l := ⟨id, id⟩

theorem Listen.Sound.trans {l m n : Listen} (h : l.Sound m) (g : m.Sound n) : l.Sound n :=
  ⟨g.law ∘ h.law, g.room ∘ h.room⟩

theorem Listen.Sound.after {l m n : Listen} (g : m.Sound n) (h : l.Sound m) : l.Sound n := h.trans g

/-- One event after another. -/
theorem Listen.Sound.andThen {l : Listen} {o : Out Listen} {f : Listen → Out Listen} (h : l.Sound o.chan)
    (g : ∀ m : Listen, m.Sound (f m).chan) : l.Sound (o.andThen f).chan := h.trans (g _)

/-- An event that happens only under a condition. -/
theorem Listen.Sound.ite {p : Prop} [Decidable p] {l : Listen} {o : Out Listen} (h : p → l.Sound o.chan) :
    l.Sound (if p then o else Out.only l).chan := by
  split
  · exact h ‹_›
  · exact .refl l

/-- Dropping what is taken and emptying the deposit meets both. -/
theorem Listen.Sound.of_dropped {l m : Listen} (h : m.toChannelCore.Dropped) (inWrite : m.inWrite = [])
    (waiting : m.waiting = []) : l.Sound m :=
  ⟨fun _ => ⟨h.lawful, fun _ => h.current⟩, fun _ => by simp [Listen.fits, inWrite, waiting]⟩

/-- Fields beside the ring, the list and the deposit do not matter, and neither does a state that stops less. -/
theorem Listen.Sound.of_same {l m : Listen} (core : m.toChannelCore = l.toChannelCore)
    (state : m.state = .closed ∨ m.state = .halted → l.state = .closed ∨ l.state = .halted)
    (deposit : m.inWrite.length + m.waiting.length ≤ l.inWrite.length + l.waiting.length) : l.Sound m :=
  ⟨fun ⟨law, stopped⟩ => ⟨by rwa [core], fun h => by rw [core]; exact stopped (state h)⟩, fun room =>
    deposit.trans room⟩

theorem Listen.judged_stops {l : Listen} (h : l.judged = .closed ∨ l.judged = .halted) :
    l.state = .closed ∨ l.state = .halted := by
  unfold Listen.judged at h
  split at h
  case h_1 closed => exact .inl closed
  case h_2 halted => exact .inr halted
  all_goals
    split at h
    · simp at h
    · split at h <;> simp at h

theorem Listen.rejudge_sound (ctx : ChannelContext) (l : Listen) : l.Sound (l.rejudge ctx).chan := by
  rw [Listen.rejudge_chan]
  exact .of_same rfl Listen.judged_stops le_rfl

theorem Listen.walks_open {l : Listen} (h : l.walks = true) : ¬(l.state = .closed ∨ l.state = .halted) := by
  rintro (closed | halted)
  · simp [Listen.walks_of_closed closed] at h
  · simp [Listen.walks_of_halted halted] at h

theorem Listen.Pumped.room {l : Listen} {o : Out Listen} (h : l.Pumped o) (room : l.fits) : o.chan.fits := by
  have length := congrArg List.length h.deposit
  rw [List.length_append, List.length_append] at length
  exact length.le.trans room

theorem Listen.nextAhead_lawful {ctx : ChannelContext} {l : Listen} {o : Out Listen} (runs : l.walks = true)
    (h : l.nextAhead ctx = some o) (law : l.lawful) : o.chan.lawful := by
  unfold Listen.nextAhead at h
  split at h
  case isFalse => cases h
  case isTrue wanted =>
    simp only [Bool.and_eq_true] at wanted
    cases h
    exact ⟨l.fetchAhead_lawful ctx law.1 wanted.1, fun s => absurd s (Listen.walks_open runs)⟩

theorem Listen.nextRequest_sound {ctx : ChannelContext} {l : Listen} {o : Out Listen}
    (h : l.nextRequest ctx = some o) : l.Sound o.chan := by
  refine ⟨fun law => ?_, (Listen.nextRequest_pumped h).room⟩
  unfold Listen.nextRequest at h
  split at h
  case isTrue => cases h
  case isFalse may =>
    have runs : l.walks = true := by
      simp only [Bool.or_eq_true, Bool.not_eq_true', decide_eq_true_eq, not_or, Bool.not_eq_false] at may
      exact may.1
    split at h
    case isTrue wanted =>
      cases h
      exact ⟨l.fetchCurrent_lawful ctx law.1 wanted, fun s => absurd s (Listen.walks_open runs)⟩
    case isFalse =>
      split at h
      · dsimp only at h
        split at h
        · cases h
          exact ⟨l.toChannelCore.request_lawful ctx law.1 Purpose.noConfusion 0 [],
            fun s => absurd s (Listen.walks_open runs)⟩
        · exact Listen.nextAhead_lawful runs h law
      · exact Listen.nextAhead_lawful runs h law

theorem Listen.pumpFor_sound (ctx : ChannelContext) (n : Nat) (l : Listen) : l.Sound (l.pumpFor ctx n).chan := by
  induction n generalizing l with
  | zero => exact .refl l
  | succ n ih =>
    unfold Listen.pumpFor
    split
    · exact (Listen.nextRequest_sound ‹_›).andThen ih
    · exact .refl l

/-- Making the requests called for keeps the law and the room (R93, R98, R131). -/
theorem Listen.pump_sound (ctx : ChannelContext) (l : Listen) : l.Sound (l.pump ctx).chan :=
  Listen.pumpFor_sound ctx _ l

theorem Listen.endEpisode_sound (ctx : ChannelContext) (l : Listen) : l.Sound (l.endEpisode ctx).chan := by
  unfold Listen.endEpisode
  split
  · exact .refl l
  · exact .of_same rfl id le_rfl

theorem Listen.enterHalted_sound (ctx : ChannelContext) (reason : HaltReason) (l m : Listen) :
    m.Sound (l.enterHalted ctx reason).chan :=
  .andThen (.of_dropped (l.toChannelCore.halt_dropped ctx reason l.lastSequence) rfl rfl)
    (Listen.endEpisode_sound ctx)

theorem Listen.complete_sound (ctx : ChannelContext) {d : Descriptor} {l : Listen}
    (held : heldOf l.ring.current = some d) : l.Sound (l.complete ctx d).chan := by
  have moved : l.Sound { l with
      toChannelCore := (l.toChannelCore.complete ctx d 0 l.lastSequence).chan, lastSequence := none } := by
    refine ⟨fun ⟨law, stopped⟩ => ⟨l.complete_lawful ctx law held _ _, fun s => ?_⟩, id⟩
    simp [stopped s, heldOf] at held
  unfold Listen.complete
  dsimp only
  split
  · exact Listen.enterHalted_sound ctx _ _ l
  · split
    · exact Listen.enterHalted_sound ctx _ _ l
    · exact moved

theorem Listen.written_sound (ctx : ChannelContext) (n : Nat) (l : Listen) : l.Sound (l.written ctx n).chan := by
  have counted : l.Sound { l with
      lastSequence := ((l.inWrite.take n).getLast?.map DepositWord.sequence).orElse fun _ => l.lastSequence
      inWrite := l.inWrite.drop n
      ring := { l.ring with position := l.ring.position + n } } := by
    refine ⟨id, fun room => le_trans ?_ room⟩
    simp
  unfold Listen.written
  dsimp only
  split
  case h_1 d held =>
    split
    · exact counted.trans (Listen.complete_sound ctx held)
    · exact counted
  case h_2 => exact counted

theorem Listen.closeComplete_sound (ctx : ChannelContext) (l : Listen) : l.Sound (l.closeComplete ctx).chan :=
  .of_dropped (l.toChannelCore.close_dropped ctx l.lastSequence) rfl rfl

theorem Listen.closeIfDone_sound (ctx : ChannelContext) (l : Listen) : l.Sound (l.closeIfDone ctx).chan :=
  .ite fun _ => l.closeComplete_sound ctx

theorem Listen.applyClose_sound (ctx : ChannelContext) (l : Listen) : l.Sound (l.applyClose ctx).chan := by
  refine .andThen ((Listen.endEpisode_sound ctx _).after (.of_same rfl ?_ ?_)) (Listen.closeIfDone_sound ctx)
  · dsimp only
    split
    · exact fun _ => .inr (by simpa using ‹(l.state == .halted) = true›)
    · simp
  · simp

/-- A taken descriptor in FETCHING is not the ring of a stopped channel. -/
theorem Listen.lawful.running {l : Listen} (h : l.lawful) {x : Taken} (present : l.ring.current = some x) :
    ¬(l.state = .closed ∨ l.state = .halted) := fun stopped => by simp [h.2 stopped] at present

section
variable {ctx : ChannelContext} {l : Listen} {e : RequestEntry} {rest : List RequestEntry}

/-- What answers the current's or the ahead's fetch keeps the law, whatever it brings. -/
theorem Listen.lawful.fetched (h : l.lawful) (list : l.requests = e :: rest) (live : e.stale = false)
    (fetch : e.purpose = .descFetch) (x : Taken) (p : Option (RingIndex × Nat)) :
    if e.index = l.ring.ci then
      Listen.lawful { l with requests := rest, ring := { l.ring with current := some x }, writePoint := p }
    else Listen.lawful { l with requests := rest, ring := { l.ring with ahead := some x }, writePoint := p } := by
  have core : ChannelCore.lawful ⟨l.ring, e :: rest⟩ := list ▸ h.1
  obtain ⟨none, place⟩ := core.answered live fetch
  have orderly : l.ring.orderly := ((ChannelCore.lawful_iff _).mp h.1).1
  rcases place with ⟨index, fetching⟩ | ⟨index, fetching⟩
  · rw [if_pos index]
    exact ⟨.setCurrent orderly fetching none x, fun s => absurd s (h.running fetching)⟩
  · rw [if_neg (index ▸ RingIndex.succ_ne _)]
    have present : l.ring.ahead.isSome = true := by simp [fetching]
    refine ⟨.setAhead orderly present none x, fun s => ?_⟩
    have held := orderly.2 present
    simp [h.2 s, heldOf] at held

theorem Listen.tail_sound (list : l.requests = e :: rest) : l.Sound { l with requests := rest } :=
  ⟨fun h => ⟨(show ChannelCore.lawful ⟨l.ring, e :: rest⟩ from list ▸ h.1).tail, h.2⟩, id⟩

theorem Listen.fetched_sound (list : l.requests = e :: rest) (live : e.stale = false)
    (fetch : e.purpose = .descFetch) (d : Descriptor) :
    l.Sound (Listen.fetched ctx e.index d { l with requests := rest }).chan := by
  unfold Listen.fetched
  dsimp only
  split
  case isTrue current =>
    split
    · exact ⟨fun h => by simpa [current] using h.fetched list live fetch (.held d) (some (l.ring.ci, 0)), id⟩
    · exact Listen.enterHalted_sound ctx _ _ l
  case isFalse ahead =>
    have law := fun (h : l.lawful) x p => by simpa [ahead] using h.fetched list live fetch x p
    split
    · exact ⟨fun h => law h _ _, id⟩
    · exact ⟨fun h => law h (.bad d) l.writePoint, id⟩

theorem Listen.fetchFailed_sound (list : l.requests = e :: rest) (live : e.stale = false)
    (fetch : e.purpose = .descFetch) :
    l.Sound (Listen.fetchFailed ctx e.index { l with requests := rest }).chan := by
  unfold Listen.fetchFailed
  dsimp only
  split
  case isTrue => exact Listen.enterHalted_sound ctx _ _ l
  case isFalse ahead =>
    exact ⟨fun h => by simpa [ahead] using h.fetched list live fetch .fetchError l.writePoint, id⟩

theorem Listen.writebackFailed_sound (index : RingIndex) : l.Sound (l.writebackFailed ctx index).chan := by
  unfold Listen.writebackFailed
  dsimp only
  split
  · exact .refl l
  · exact Listen.enterHalted_sound ctx _ l l

/-- The answer to the oldest request, not stale (R132). -/
theorem Listen.judgeResponse_sound (list : l.requests = e :: rest) (live : e.stale = false)
    (words : Option (List Word)) :
    l.Sound (Listen.judgeResponse ctx e words { l with requests := rest }).chan := by
  have tail := l.tail_sound list
  unfold Listen.judgeResponse
  split
  case h_1 purpose => exact Listen.fetched_sound list live purpose _
  case h_2 purpose => exact Listen.fetchFailed_sound list live purpose
  case h_3 => exact tail.trans (Listen.written_sound ctx _ _)
  case h_4 => exact Listen.enterHalted_sound ctx _ _ l
  case h_5 => split <;> exact tail
  case h_6 => exact tail.trans (Listen.writebackFailed_sound _)
  case h_7 => exact tail

end

theorem Listen.response_sound (ctx : ChannelContext) (words : Option (List Word)) (l : Listen) :
    l.Sound (l.response ctx words).chan := by
  unfold Listen.response
  split
  case h_1 => exact .refl l
  case h_2 e rest list =>
    refine .andThen (.andThen (.andThen ?_ (Listen.rejudge_sound ctx)) (Listen.closeIfDone_sound ctx))
      (Listen.pump_sound ctx)
    split
    · exact l.tail_sound list
    · exact Listen.judgeResponse_sound list (by simpa using ‹¬e.stale = true›) words

/-- A burst is kept only if the deposit has room for its words (R129). -/
theorem Listen.accept_sound (ctx : ChannelContext) {b : Burst} {l : Listen} (fits : b.words.length ≤ l.room) :
    l.Sound (l.accept ctx b).chan := by
  have same : (l.endEpisode ctx).chan.inWrite = l.inWrite ∧ (l.endEpisode ctx).chan.waiting = l.waiting := by
    unfold Listen.endEpisode
    split <;> exact ⟨rfl, rfl⟩
  obtain ⟨inWrite, waiting⟩ := same
  have joined : l.Sound { (l.endEpisode ctx).chan with
      waiting := (l.endEpisode ctx).chan.waiting ++ b.words.map fun w => { word := w, sequence := b.sequence }
      wordsReceived := (l.endEpisode ctx).chan.wordsReceived + BitVec.ofNat 32 b.words.length } := by
    refine ⟨(Listen.endEpisode_sound ctx l).law, fun room => ?_⟩
    simp only [Listen.room, Config.bufferWords] at fits
    simp only [Listen.fits, inWrite, waiting, List.length_append, List.length_map] at room ⊢
    omega
  exact joined.andThen (Listen.pump_sound ctx)

theorem Listen.take_sound (ctx : ChannelContext) (slot : Slot) (b : Burst) (l : Listen) :
    l.Sound (l.take ctx slot b).chan := by
  refine .ite fun _ => .andThen (.of_same rfl id le_rfl) fun m => ?_
  split
  · exact .refl m
  · split
    case isTrue keep =>
      simp only [Bool.and_eq_true, decide_eq_true_eq] at keep
      exact Listen.accept_sound ctx keep.2
    case isFalse => exact .of_same rfl id le_rfl

theorem Listen.rebind_sound (ctx : ChannelContext) (found : Option (Slot × StationId)) (l : Listen) :
    l.Sound (l.rebind ctx found).chan := by
  unfold Listen.rebind
  split
  · split
    · exact .refl l
    · exact .andThen (.of_same rfl id le_rfl) (Listen.rejudge_sound ctx)
  · split
    · exact .refl l
    · dsimp only
      split
      · exact .of_same rfl id le_rfl
      · exact .andThen (.of_same rfl (by simp) le_rfl) (Listen.endEpisode_sound ctx)

theorem Listen.judgeDuplicate_sound (ctx : ChannelContext) (found : Option Slot) (n : Nat) (l : Listen) :
    l.Sound (l.judgeDuplicate ctx found n).chan := by
  unfold Listen.judgeDuplicate
  split
  · split
    · exact .refl l
    · exact .of_same rfl id le_rfl
  · exact .of_same rfl id le_rfl

theorem Listen.resolve_sound (ctx : ChannelContext) (found : Option (Slot × StationId)) (n : Nat) (l : Listen) :
    l.Sound (l.resolve ctx found n).chan := by
  unfold Listen.resolve
  split
  · exact .refl l
  · exact (l.rebind_sound ctx found).andThen (Listen.judgeDuplicate_sound ctx _ n)

theorem Listen.resumed_sound (ctx : ChannelContext) (l : Listen) : l.Sound (l.resumed ctx).chan := by
  unfold Listen.resumed
  dsimp only
  split
  · exact (Listen.pump_sound ctx _).after (.of_same rfl (by simp) le_rfl)
  · exact .of_same rfl id le_rfl

theorem Listen.applyWaiting_sound (ctx : ChannelContext) (l : Listen) : l.Sound (l.applyWaiting ctx).chan :=
  .andThen (.ite fun _ => l.resumed_sound ctx) fun m => .ite fun _ => m.applyClose_sound ctx

theorem Listen.leaveLink_sound (ctx : ChannelContext) (l : Listen) : l.Sound (l.leaveLink ctx).chan := by
  refine .andThen ?_ (Listen.applyWaiting_sound ctx)
  split
  · exact (Listen.endEpisode_sound ctx _).after (.of_same rfl (by simp) le_rfl)
  · exact .of_same rfl id le_rfl

/-- A CLOSED or HALTED channel has no fetch that is not stale. -/
theorem Listen.lawful.dropped {l : Listen} (h : l.lawful) (stopped : l.state = .closed ∨ l.state = .halted) :
    l.ring.current = none ∧ l.ring.ahead = none ∧ liveFetches l.requests = [] := by
  obtain ⟨⟨-, held⟩, -, places⟩ := (ChannelCore.lawful_iff _).mp h.1
  have current := h.2 stopped
  have ahead : l.ring.ahead = none := by
    rw [← Option.not_isSome_iff_eq_none]
    intro present
    simpa [current, heldOf] using held present
  exact ⟨current, ahead, List.eq_nil_iff_forall_not_mem.mpr fun e he => by
    simpa [current, ahead] using places e he⟩

theorem Listen.opened_sound (ctx : ChannelContext) (p : OpenParams) {l : Listen} (closed : l.state = .closed) :
    l.Sound (l.opened ctx p).chan := by
  refine (Listen.pump_sound ctx _).after ⟨fun h => ⟨(ChannelCore.lawful_iff _).mpr ⟨⟨?_, ?_⟩, ?_⟩, by simp⟩, fun _ => ?_⟩
  · simp [Ring.opened, Ring.taken]
  · simp [Ring.opened]
  · have none := (h.dropped (.inl closed)).2.2
    dsimp only
    rw [none]
    exact Ring.awaits_nil _
  · simp [Listen.fits, Listen.clear]

theorem Listen.fill_sound (ctx : ChannelContext) (fi : RingIndex) (l : Listen) : l.Sound (l.fill ctx fi).chan := by
  unfold Listen.fill
  split
  case h_1 => exact .refl l
  case h_2 verdict =>
    refine .andThen ((Listen.rejudge_sound ctx _).after ⟨fun ⟨law, stopped⟩ => ⟨?_, stopped⟩, id⟩)
      (Listen.pump_sound ctx)
    exact law.refilled (Ring.taken_le_of_verdict verdict).2

end Sys2Proof.Machine

/-! What every command keeps: one relation between the states before and after that holds of each operation of the model
and of their compositions. `State.Keeps` has the bounds that all commands keep, `State.Acts` also what the host's words
and the event queue keep where the host gives no command. -/

namespace Sys2Proof.Machine

/-! ## The bounds -/

/-- The fields of STC agree with each other and are in their ranges (R22 to R24, R26, R35). -/
structure Stc.Consistent (c : Stc) : Prop where
  cause : c.cause.isSome = true ↔ c.state = .fault
  start : c.start = none ↔ c.state = .off
  inRange : ∀ r, c.start = some r → r.inRange
  learn : c.learn ≤ 8
  learning : c.state = .listening → c.learn < 8
  rounds : c.windowRounds < 64
  errors : c.windowErrors ≤ 255

/-- LIF's receive-error counters are in their ranges (R18). -/
structure Lif.Counted (l : Lif) : Prop where
  markerEarly : l.markerEarly ≤ 65535
  claimCheck : l.claimCheck ≤ 65535
  burstCheck : l.burstCheck ≤ 65535

/-- The bounds and laws that every command keeps. -/
structure State.Keeps (s t : State) : Prop where
  stc : s.stc.Consistent → t.stc.Consistent
  errors : s.lif.Counted → t.lif.Counted
  map : s.mapBounded → t.mapBounded
  unused : s.unusedFree → t.unusedFree
  claims : s.claimsDistinct → t.claimsDistinct
  talk : ∀ k : TalkId, s.talk[k].Sound t.talk[k]
  listen : ∀ k : ListenId, s.listen[k].Sound t.listen[k]
  port : s.portBounded → t.portBounded
  events : s.eventsBounded → t.eventsBounded
  dropped : s.evq.dropped ≤ 65535 → t.evq.dropped ≤ 65535

/-- Only fields that the bounds do not speak of have changed. -/
theorem State.Keeps.of_eq {s t : State} (stc : t.stc = s.stc) (lif : t.lif = s.lif) (smap : t.smap = s.smap)
    (cle : t.cle = s.cle) (talk : t.talk = s.talk) (listen : t.listen = s.listen) (mpt : t.mpt = s.mpt)
    (evq : t.evq = s.evq) : s.Keeps t where
  stc h := by rwa [stc]
  errors h := by rwa [lif]
  map h i := by rw [smap]; exact h i
  unused h i := by rw [smap, State.slots, stc]; exact h i
  claims h := by rwa [State.claimsDistinct, cle]
  talk k := by rw [talk]; exact .refl _
  listen k := by rw [listen]; exact .refl _
  port h := by rwa [State.portBounded, mpt]
  events h := by rwa [State.eventsBounded, evq]
  dropped h := by rwa [evq]

theorem State.Keeps.refl (s : State) : s.Keeps s := .of_eq rfl rfl rfl rfl rfl rfl rfl rfl

theorem State.Keeps.trans {s t u : State} (h : s.Keeps t) (g : t.Keeps u) : s.Keeps u where
  stc := g.stc ∘ h.stc
  errors := g.errors ∘ h.errors
  map := g.map ∘ h.map
  unused := g.unused ∘ h.unused
  claims := g.claims ∘ h.claims
  talk k := (h.talk k).trans (g.talk k)
  listen k := (h.listen k).trans (g.listen k)
  port := g.port ∘ h.port
  events := g.events ∘ h.events
  dropped := g.dropped ∘ h.dropped

theorem State.hostSideKept.refl (s : State) : s.hostSideKept s :=
  ⟨rfl, rfl, rfl, rfl, rfl, id, id, id, rfl, ⟨[], (List.append_nil _).symm⟩, rfl, rfl, rfl⟩

/-- The host's words, the event queue, the START record, the pin and the commands that wait have not changed. -/
theorem State.hostSideKept.of_eq {s t : State} (hpt : t.hpt = s.hpt) (evq : t.evq = s.evq)
    (start : t.stc.start = s.stc.start) (held : t.rstHeld = s.rstHeld) (pending : t.pending = s.pending) :
    s.hostSideKept t := by
  unfold State.hostSideKept
  rw [hpt, evq, start, held, pending]
  exact State.hostSideKept.refl s

theorem State.hostSideKept.trans {s t u : State} (h : s.hostSideKept t) (g : t.hostSideKept u) : s.hostSideKept u := by
  obtain ⟨code, params, snapshot, powerUp, lost, shape, stuck, overflow, head, ⟨more, queue⟩, start, held, pending⟩ := h
  obtain ⟨code', params', snapshot', powerUp', lost', shape', stuck', overflow', head', ⟨more', queue'⟩, start', held',
    pending'⟩ := g
  exact ⟨code'.trans code, params'.trans params, snapshot'.trans snapshot, powerUp'.trans powerUp, lost'.trans lost,
    shape' ∘ shape, stuck' ∘ stuck, overflow' ∘ overflow, head'.trans head,
    ⟨more ++ more', by rw [queue', queue, List.append_assoc]⟩, start'.trans start, held'.trans held,
    pending'.trans pending⟩

/-- What an event that is not the host's keeps. -/
structure State.Acts (s t : State) : Prop extends s.Keeps t where
  host : s.hostSideKept t

theorem State.Acts.refl (s : State) : s.Acts s := ⟨.refl s, .refl s⟩

/-- Only fields that neither the bounds nor the host's side speak of have changed. -/
theorem State.Acts.of_eq {s t : State} (stc : t.stc = s.stc) (lif : t.lif = s.lif) (smap : t.smap = s.smap)
    (cle : t.cle = s.cle) (talk : t.talk = s.talk) (listen : t.listen = s.listen) (mpt : t.mpt = s.mpt)
    (evq : t.evq = s.evq) (hpt : t.hpt = s.hpt) (held : t.rstHeld = s.rstHeld) (pending : t.pending = s.pending) :
    s.Acts t :=
  ⟨.of_eq stc lif smap cle talk listen mpt evq, .of_eq hpt evq (by rw [stc]) held pending⟩

theorem State.Acts.trans {s t u : State} (h : s.Acts t) (g : t.Acts u) : s.Acts u :=
  ⟨h.toKeeps.trans g.toKeeps, h.host.trans g.host⟩

theorem State.Acts.after {s t u : State} (g : t.Acts u) (h : s.Acts t) : s.Acts u := h.trans g

theorem State.Acts.start {s t : State} (h : s.Acts t) : t.stc.start = s.stc.start := by
  obtain ⟨-, -, -, -, -, -, -, -, -, -, start, -⟩ := h.host
  exact start

theorem State.slots_congr {s t : State} (h : t.stc.start = s.stc.start) : t.slots = s.slots := by
  simp only [State.slots, h]

theorem State.Acts.slots {s t : State} (h : s.Acts t) : t.slots = s.slots := State.slots_congr h.start

/-- An event that happens only under a condition. -/
theorem State.Acts.ite {p : Prop} [Decidable p] {s t : State} (h : p → s.Acts t) : s.Acts (if p then t else s) := by
  split
  · exact h ‹_›
  · exact .refl s

/-- A run of events, each of which keeps what it finds. -/
theorem State.Acts.foldl {α : Type} {f : State → α → State} {s : State} {xs : List α}
    (step : ∀ t, s.Acts t → ∀ x ∈ xs, t.Acts (f t x)) : s.Acts (xs.foldl f s) := by
  have general : ∀ t, s.Acts t → s.Acts (xs.foldl f t) := by
    induction xs with
    | nil => exact fun t h => h
    | cons x xs ih =>
      intro t h
      have here := step t h x List.mem_cons_self
      exact ih (fun u hu y hy => step u hu y (List.mem_cons_of_mem x hy)) _ (h.trans here)
  exact general s (.refl s)

/-! ## Updates of one block -/

section
variable (s : State)

theorem State.acts_setRtm (v : Rtm) : s.Acts (s.setRtm v) :=
  .of_eq rfl rfl rfl rfl rfl rfl rfl rfl rfl rfl rfl
theorem State.acts_setBoundary (v : BoundaryWork) : s.Acts (s.setBoundary v) :=
  .of_eq rfl rfl rfl rfl rfl rfl rfl rfl rfl rfl rfl
theorem State.acts_reach (time : Nat) : s.Acts (s.reach time) :=
  .of_eq rfl rfl rfl rfl rfl rfl rfl rfl rfl rfl rfl
/-- The mailbox is not among the host's words. -/
theorem State.acts_setMailbox (m : Mailbox) : s.Acts (s.setMailbox m) :=
  ⟨.of_eq rfl rfl rfl rfl rfl rfl rfl rfl,
    rfl, rfl, rfl, rfl, rfl, id, id, id, rfl, ⟨[], (List.append_nil _).symm⟩, rfl, rfl, rfl⟩

end

section
variable {s : State}

theorem State.acts_setStc {v : Stc} (h : s.stc.Consistent → v.Consistent) (start : v.start = s.stc.start) :
    s.Acts (s.setStc v) := by
  have slots : (s.setStc v).slots = s.slots := State.slots_congr start
  exact ⟨⟨h, id, id, fun unused i above => unused i (slots ▸ above), id, fun _ => .refl _, fun _ => .refl _, id, id, id⟩,
    .of_eq rfl rfl start rfl rfl⟩

theorem State.acts_setLif {v : Lif} (h : s.lif.Counted → v.Counted) : s.Acts (s.setLif v) :=
  ⟨⟨id, h, id, id, id, fun _ => .refl _, fun _ => .refl _, id, id, id⟩, .of_eq rfl rfl rfl rfl rfl⟩

/-- A change of STC's fields that the ranges do not speak of. -/
theorem Stc.Consistent.congr {c d : Stc} (state : d.state = c.state) (start : d.start = c.start)
    (cause : d.cause = c.cause) (learn : d.learn = c.learn) (rounds : d.windowRounds = c.windowRounds)
    (errors : d.windowErrors = c.windowErrors) (h : c.Consistent) : d.Consistent where
  cause := by rw [cause, state]; exact h.cause
  start := by rw [start, state]; exact h.start
  inRange := by rw [start]; exact h.inRange
  learn := by rw [learn]; exact h.learn
  learning := by rw [learn, state]; exact h.learning
  rounds := by rw [rounds]; exact h.rounds
  errors := by rw [errors]; exact h.errors

/-- STC changes in fields that the ranges do not speak of. -/
theorem State.acts_setStc_same (pending : Bool) (marks : Vector Bool 8) (report : Option DuplicateReport) :
    s.Acts (s.setStc { s.stc with leavePending := pending, leaveMarks := marks, report }) :=
  State.acts_setStc (.congr rfl rfl rfl rfl rfl rfl) rfl

/-- LIF changes, and its counters do not. -/
theorem State.acts_setLif_same (activity : Activity) (opened lastDominant watchesFrom : Nat) :
    s.Acts (s.setLif { s.lif with activity, opened, lastDominant, watchesFrom }) :=
  State.acts_setLif fun h => ⟨h.markerEarly, h.claimCheck, h.burstCheck⟩

/-- SMAP changes, and its entries do not. -/
theorem State.acts_setSmap (observations : Vector (Option Observation) 32) (message : Option ClaimMessage)
    (part : WindowPart) (abandon : List Slot) (stamp : BitVec 16) :
    s.Acts (s.setSmap { s.smap with observations, message, part, abandon, stamp }) :=
  ⟨⟨id, id, id, id, id, fun _ => .refl _, fun _ => .refl _, id, id, id⟩, .of_eq rfl rfl rfl rfl rfl⟩

/-- The entries of the map change, each within its bounds, and the unused ones stay FREE (R41). -/
theorem State.acts_setEntries {v : Smap} (map : s.mapBounded → ∀ i : Slot, v.entries[i].bounded)
    (unused : s.unusedFree → ∀ i : Slot, s.slots ≤ i.val → v.entries[i] = .free) : s.Acts (s.setSmap v) :=
  ⟨⟨id, id, map, unused, id, fun _ => .refl _, fun _ => .refl _, id, id, id⟩, .of_eq rfl rfl rfl rfl rfl⟩

theorem Smap.freed_entries (m : Smap) (i : Slot) : m.freed.entries[i] = .free := by
  simp [Smap.freed]

theorem State.acts_setSmap_freed (m : Smap) : s.Acts (s.setSmap m.freed) :=
  State.acts_setEntries (fun _ i => by rw [m.freed_entries]; trivial) fun _ i _ => m.freed_entries i

/-- A bounded entry at a used slot (R41). -/
theorem State.acts_setEntry {slot : Slot} {e : Entry} (used : slot.val < s.slots) (h : s.mapBounded → e.bounded) :
    s.Acts (s.setEntry slot e) := by
  refine State.acts_setEntries (fun bounded i => ?_) fun unused i above => ?_
  · by_cases same : slot = i
    · subst same
      simpa using h bounded
    · have other : slot.val ≠ i.val := fun val => same (Fin.ext val)
      simpa [other] using bounded i
  · have other : slot.val ≠ i.val := by omega
    simpa [other] using unused i above

theorem State.acts_setCle {v : Cle} (h : s.claimsDistinct → (v.queue.map ClaimRequest.channel).Nodup) :
    s.Acts (s.setCle v) :=
  ⟨⟨id, id, id, id, h, fun _ => .refl _, fun _ => .refl _, id, id, id⟩, .of_eq rfl rfl rfl rfl rfl⟩

theorem State.acts_setTalk {k : TalkId} {v : Talk} (h : s.talk[k].Sound v) : s.Acts (s.setTalk k v) := by
  refine ⟨⟨id, id, id, id, id, fun j => ?_, fun _ => .refl _, id, id, id⟩, .of_eq rfl rfl rfl rfl rfl⟩
  by_cases same : k = j
  · subst same
    simpa using h
  · have other : k.val ≠ j.val := fun val => same (Fin.ext val)
    simpa [other] using Talk.Sound.refl _

theorem State.acts_setListen {k : ListenId} {v : Listen} (h : s.listen[k].Sound v) : s.Acts (s.setListen k v) := by
  refine ⟨⟨id, id, id, id, id, fun _ => .refl _, fun j => ?_, id, id, id⟩, .of_eq rfl rfl rfl rfl rfl⟩
  by_cases same : k = j
  · subst same
    simpa using h
  · have other : k.val ≠ j.val := fun val => same (Fin.ext val)
    simpa [other] using Listen.Sound.refl _

theorem State.acts_setMpt {v : Mpt}
    (h : s.portBounded → v.outstanding.length ≤ 4 ∧ v.absorb ≤ v.outstanding.length) : s.Acts (s.setMpt v) :=
  ⟨⟨id, id, id, id, id, fun _ => .refl _, fun _ => .refl _, h, id, id⟩, .of_eq rfl rfl rfl rfl rfl⟩

theorem State.acts_enqueue (s : State) (c : ChannelId) (rs : List MemRequest) : s.Acts (s.enqueue c rs) :=
  State.acts_setMpt id

/-- A flag is set, and none is cleared (R161). -/
theorem State.acts_setFlags {f : Flags} (powerUp : f.powerUp = s.hpt.flags.powerUp)
    (lost : f.commandLost = s.hpt.flags.commandLost) (shape : s.hpt.flags.shapeMismatch = true → f.shapeMismatch = true)
    (stuck : s.hpt.flags.lineStuck = true → f.lineStuck = true)
    (overflow : s.hpt.flags.eventOverflow = true → f.eventOverflow = true) : s.Acts (s.setFlags f) :=
  ⟨.of_eq rfl rfl rfl rfl rfl rfl rfl rfl,
    rfl, rfl, rfl, powerUp, lost, shape, stuck, overflow, rfl, ⟨[], (List.append_nil _).symm⟩, rfl, rfl, rfl⟩

/-- The event queue grows at its tail, within its places, or a record is dropped (R167, R168). -/
theorem State.acts_setEvq {v : Evq} (queue : ∃ more, v.queue = s.evq.queue ++ more)
    (places : s.eventsBounded → v.queue.length ≤ 32) (dropped : s.evq.dropped ≤ 65535 → v.dropped ≤ 65535)
    (head : v.head = s.evq.head) : s.Acts (s.setEvq v) :=
  ⟨⟨id, id, id, id, id, fun _ => .refl _, fun _ => .refl _, id, places, dropped⟩,
    rfl, rfl, rfl, rfl, rfl, id, id, id, head, queue, rfl, rfl, rfl⟩

end

/-! ## Records and the outcome of one channel's event -/

theorem State.acts_post (s : State) (r : EventRecord) : s.Acts (s.post r) := by
  by_cases recorded : s.records r.kind = true
  · by_cases place : s.evq.queue.length < 32
    · rw [State.post_of_place recorded place]
      exact State.acts_setEvq ⟨_, rfl⟩ (fun _ => by simpa using place) id rfl
    · rw [State.post_of_full recorded (Nat.not_lt.mp place)]
      refine State.Acts.trans ?_ (State.acts_setFlags rfl rfl id id fun _ => rfl)
      exact State.acts_setEvq ⟨[], (List.append_nil _).symm⟩ id (fun _ => Nat.min_le_left _ _) rfl
  · rw [State.post_of_masked (by simpa using recorded)]
    exact .refl s

theorem State.acts_postAll (s : State) (rs : List EventRecord) : s.Acts (s.postAll rs) :=
  .foldl fun t _ r _ => t.acts_post r

theorem State.acts_commandComplete (s : State) : s.Acts s.commandComplete := by
  unfold State.commandComplete
  split
  · exact s.acts_setMailbox _
  all_goals exact .refl s

theorem State.acts_carry {α : Type} (s : State) (c : ChannelId) (o : Out α) : s.Acts (s.carry c o) := by
  have made : s.Acts ((s.enqueue c o.requests).postAll o.records) := (s.acts_enqueue c _).trans (State.acts_postAll _ _)
  unfold State.carry
  dsimp only
  split
  · exact made.trans (State.acts_commandComplete _)
  · exact made

theorem Cle.holds_eq_false {c : Cle} {k : TalkId} (h : c.holds k = false) : k ∉ c.queue.map ClaimRequest.channel := by
  intro member
  obtain ⟨r, hr, rfl⟩ := List.mem_map.mp member
  rw [Cle.holds, Cle.requestOf, Option.isSome_eq_false_iff, Option.isNone_iff_eq_none, List.find?_eq_none] at h
  simpa using h r hr

/-- A request joins for a channel that has none (R65). -/
theorem State.acts_joinQueue {s : State} {r : ClaimRequest} (free : s.cle.holds r.channel = false) :
    s.Acts (s.joinQueue r) :=
  State.acts_setCle fun distinct => by
    rw [List.map_append]
    refine List.nodup_append.mpr ⟨distinct, List.nodup_singleton _, fun a ha b hb => ?_⟩
    obtain rfl : b = r.channel := by simpa using hb
    exact fun same => Cle.holds_eq_false free (same ▸ ha)

theorem State.acts_joinRelease {s : State} {k : TalkId} (free : s.cle.holds k = false) : s.Acts (s.joinRelease k) :=
  State.acts_joinQueue free

theorem State.acts_endRelease (s : State) (k : TalkId) : s.Acts (s.endRelease k) :=
  .ite fun may => by
    simp only [Bool.and_eq_true, Bool.not_eq_true'] at may
    exact State.acts_joinRelease may.2

theorem State.acts_applyTalk {s : State} {k : TalkId} {f : ChannelContext → Talk → Out Talk}
    (sound : s.talk[k].Sound (f (s.talkContext k) s.talk[k]).chan) : s.Acts (s.applyTalk k f) := by
  have carried := (State.acts_setTalk sound).trans
    (State.acts_carry _ (talkChannel k) (f (s.talkContext k) s.talk[k]))
  unfold State.applyTalk
  dsimp only
  split
  · exact carried.trans (State.acts_endRelease _ k)
  · exact carried

theorem State.acts_applyListen {s : State} {k : ListenId} {f : ChannelContext → Listen → Out Listen}
    (sound : s.listen[k].Sound (f (s.listenContext k) s.listen[k]).chan) : s.Acts (s.applyListen k f) :=
  (State.acts_setListen sound).trans (State.acts_carry _ _ _)

theorem State.acts_eachTalk (s : State) {f : ChannelContext → Talk → Out Talk}
    (sound : ∀ ctx (t : Talk), t.Sound (f ctx t).chan) : s.Acts (s.eachTalk f) :=
  .foldl fun _ _ _ _ => State.acts_applyTalk (sound _ _)

theorem State.acts_eachListen (s : State) {f : ChannelContext → Listen → Out Listen}
    (sound : ∀ ctx (l : Listen), l.Sound (f ctx l).chan) : s.Acts (s.eachListen f) :=
  .foldl fun _ _ _ _ => State.acts_applyListen (sound _ _)

/-! ## The Claim Engine -/

theorem State.acts_endRequest (s : State) (k : TalkId) (outcome : EventRecord) : s.Acts (s.endRequest k outcome) :=
  (State.acts_setCle fun distinct => distinct.sublist (List.filter_sublist.map _)).trans (State.acts_post _ _)

theorem State.acts_updateRequest (s : State) (k : TalkId) {f : ClaimRequest → ClaimRequest}
    (same : ∀ r, (f r).channel = r.channel) : s.Acts (s.updateRequest k f) :=
  State.acts_setCle fun distinct => by
    have channels : (s.cle.queue.map fun r => if (r.channel == k) = true then f r else r).map ClaimRequest.channel =
        s.cle.queue.map ClaimRequest.channel := by
      rw [List.map_map]
      refine List.map_congr_left fun r _ => ?_
      dsimp only [Function.comp_apply]
      split
      · exact same r
      · rfl
    exact channels ▸ distinct

/-- The walk at most takes requests out of the queue (R70). -/
theorem State.walk_channels (s : State) (queue : List ClaimRequest) :
    ((s.walk queue).queue.map ClaimRequest.channel).Sublist (queue.map ClaimRequest.channel) := by
  induction queue with
  | nil => exact .slnil
  | cons r rest ih =>
    unfold State.walk
    split
    · exact ih.cons_cons _
    · exact ih.cons _
    · exact .refl _

theorem State.acts_chooseMessage (s : State) : s.Acts s.chooseMessage.1 := by
  unfold State.chooseMessage
  split
  · exact (State.acts_setCle fun distinct => distinct.sublist (s.walk_channels _)).trans (State.acts_postAll _ _)
  · exact .refl s

theorem State.acts_lostRequest (s : State) (k : TalkId) (r : ClaimRequest) (ends : Option ClaimCause) :
    s.Acts (s.lostRequest k r ends) := by
  unfold State.lostRequest
  split
  · exact s.acts_endRequest _ _
  · split
    · split <;> exact s.acts_endRequest _ _
    · exact s.acts_updateRequest k fun _ => rfl

theorem State.acts_windowResult (s : State) (part : WindowPart) : s.Acts (s.windowResult part) := by
  have off : s.Acts (s.setCle { s.cle with onLine := none, lineEnds := none }) := State.acts_setCle id
  unfold State.windowResult
  split
  · exact .refl s
  · dsimp only
    split
    · exact off.trans (State.acts_updateRequest _ _ fun _ => rfl)
    · exact off.trans (State.acts_lostRequest _ _ _ _)
    · exact off
    · exact off

theorem State.acts_closeNotice (s : State) (k : TalkId) : s.Acts (s.closeNotice k) := by
  unfold State.closeNotice
  split
  · exact .refl s
  · split
    · exact .refl s
    · split
      · exact State.acts_setCle id
      · exact s.acts_endRequest _ _

theorem State.acts_leaveRequest (s : State) (r : ClaimRequest) : s.Acts (s.leaveRequest r) :=
  .ite fun _ => by
    split
    · exact State.acts_setCle id
    · exact s.acts_endRequest _ _

theorem State.acts_withdrawClaims (s : State) : s.Acts s.withdrawClaims :=
  .foldl fun t _ r _ => t.acts_leaveRequest r

theorem State.acts_withdrawAll (s : State) : s.Acts s.withdrawAll :=
  (State.acts_postAll _ _).after (State.acts_setCle fun _ => List.nodup_nil)

theorem State.acts_claimWork (s : State) : s.Acts s.claimWork :=
  .ite fun _ => ((s.acts_setBoundary _).trans
    (.foldl fun t _ _ _ => .ite fun _ => t.acts_endRequest _ _)).trans
    (.foldl fun t _ _ _ => .ite fun _ => t.acts_endRequest _ _)

/-! ## The engines' boundary work -/

theorem State.acts_talkWork (s : State) : s.Acts s.talkWork :=
  .ite fun _ => (s.acts_setBoundary _).trans (State.acts_eachTalk _ Talk.boundary_sound)

theorem State.acts_resolveListen (s : State) (k : ListenId) : s.Acts (s.resolveListen k) := by
  unfold State.resolveListen
  split
  · exact .refl s
  · exact State.acts_applyListen (Listen.resolve_sound _ _ _ _)

theorem State.acts_listenWork (s : State) : s.Acts s.listenWork :=
  .ite fun _ => ((s.acts_setBoundary _).trans (State.acts_eachListen _ Listen.applyWaiting_sound)).trans
    (.foldl fun t _ k _ => t.acts_resolveListen k)

/-! ## The Memory Port -/

theorem State.acts_handResponse (s : State) (r : MemRequest) (error : Bool) (data : Vector Word 8) :
    s.Acts (s.handResponse r error data) := by
  unfold State.handResponse
  dsimp only
  split
  · exact State.acts_applyTalk (Talk.response_sound _ _ _)
  · exact State.acts_applyListen (Listen.response_sound _ _ _)

/-- A response takes one outstanding request away, and one to be absorbed if there is one (R144, R148). -/
theorem State.acts_takeResponse (s : State) (error : Bool) (data : Vector Word 8) :
    s.Acts (s.takeResponse error data) := by
  unfold State.takeResponse
  split
  · exact .refl s
  case h_2 r rest outstanding =>
    have shorter : s.portBounded → rest.length + 1 ≤ 4 ∧ s.mpt.absorb ≤ rest.length + 1 := fun bounded => by
      simpa [State.portBounded, outstanding] using bounded
    split
    · refine State.acts_setMpt fun bounded => ?_
      have := shorter bounded
      dsimp only
      omega
    · refine .trans (State.acts_setMpt fun bounded => ?_) (State.acts_handResponse _ _ _ _)
      have := shorter bounded
      dsimp only
      omega

/-- A grant finds a free place and nothing to absorb (R142, R148). -/
theorem State.acts_grant (s : State) : s.Acts (s.setMpt s.mpt.grant) := by
  refine State.acts_setMpt fun bounded => ?_
  obtain ⟨places, absorbed⟩ := bounded
  unfold Mpt.grant
  split
  case isFalse => exact ⟨places, absorbed⟩
  case isTrue may =>
    rw [Mpt.mayGrant, Bool.and_eq_true, beq_iff_eq] at may
    obtain ⟨place, nothing⟩ := may
    have fewer : s.mpt.outstanding.length < 4 := of_decide_eq_true place
    split
    · exact ⟨places, absorbed⟩
    · split
      · exact ⟨places, absorbed⟩
      · simp only [List.length_append, List.length_singleton, nothing]
        omega

/-! ## The Slot Map -/

theorem State.acts_slotLost (s : State) (slot : Slot) (cause : LossCause) (station : Option StationId) :
    s.Acts (s.slotLost slot cause station) := by
  unfold State.slotLost
  split
  · exact (s.acts_post _).trans (State.acts_applyTalk (Talk.loseSlot_sound _ _))
  · exact s.acts_post _

theorem State.acts_slotUnbound (s : State) (slot : Slot) : s.Acts (s.slotUnbound slot) := by
  unfold State.slotUnbound
  split
  · exact State.acts_applyTalk (Talk.unbind_sound _)
  · exact .refl s

theorem State.acts_observe (s : State) (slot : Slot) (o : Observation) : s.Acts (s.observe slot o) :=
  State.acts_setSmap _ _ _ _ _

theorem Entry.ownedBy_bounded (self x : StationId) (tag : Tag) : (Entry.ownedBy self x tag).bounded := by
  unfold Entry.ownedBy
  split <;> exact Nat.zero_le _

theorem Entry.silentRound_bounded (owner : StationId) (tag : Tag) (silent : Nat) (rival : Option StationId) :
    (Entry.silentRound owner tag silent rival).bounded := by
  rcases Nat.lt_or_ge silent 7 with early | eighth
  · rw [Entry.silentRound_of_lt _ _ _ early]
    exact early
  · rw [Entry.silentRound_of_ge _ _ _ eighth]
    trivial

section
variable {s : State} {slot : Slot}

theorem State.mapBounded.own (h : s.mapBounded) {tag : Tag} {rival : Option StationId} {mismatches : Nat}
    (entry : s.smap.entries[slot] = .own tag rival mismatches) : mismatches ≤ 1 := by
  have bounded := h slot
  rwa [entry] at bounded

theorem State.mapBounded.quarantine (h : s.mapBounded) {n : Nat} (entry : s.smap.entries[slot] = .quarantine n) :
    1 ≤ n ∧ n ≤ 8 := by
  have bounded := h slot
  rwa [entry] at bounded

theorem State.acts_evidenceStep (used : slot.val < s.slots) : s.Acts (s.evidenceStep slot) := by
  unfold State.evidenceStep
  split
  · exact .refl s
  · split
    · exact State.acts_setEntry used fun _ => Entry.ownedBy_bounded _ _ _
    · exact State.acts_setEntry used fun _ => Entry.ownedBy_bounded _ _ _
    · split
      · exact State.acts_setEntry used fun _ => Nat.zero_le _
      · split
        · exact State.acts_setEntry used fun _ => Entry.ownedBy_bounded _ _ _
        · exact State.acts_setEntry used fun _ => Entry.silentRound_bounded _ _ _ _
    case h_4 entry =>
      split
      · exact State.acts_setEntry used fun bounded => bounded.own entry
      · split
        · exact .trans (State.acts_setEntry used fun _ => Nat.zero_le _) (State.acts_slotLost _ _ _ _)
        · exact State.acts_setEntry used fun bounded => bounded.own entry

theorem State.acts_silenceStep (used : slot.val < s.slots) : s.Acts (s.silenceStep slot) := by
  unfold State.silenceStep
  split
  · exact State.acts_setEntry used fun _ => Entry.silentRound_bounded _ _ _ _
  · exact .refl s

theorem State.acts_ownStep (used : slot.val < s.slots) : s.Acts (s.ownStep slot) := by
  unfold State.ownStep
  split
  case h_1 entry =>
    dsimp only
    split
    · exact State.acts_setEntry used fun bounded => bounded.own entry
    · exact State.acts_setEntry used fun _ => Nat.zero_le _
    · split
      · exact State.acts_setEntry used fun _ => le_rfl
      · exact (State.acts_slotLost _ _ _ _).after (State.acts_setEntry used fun _ => ⟨by decide, le_rfl⟩)
  all_goals exact .refl s

theorem State.acts_offerBinding (used : slot.val < s.slots) (tag : Tag) : s.Acts (s.offerBinding slot tag) := by
  unfold State.offerBinding
  split
  · exact .refl s
  · split
    · exact .trans (State.acts_setEntry used fun _ => Nat.zero_le _) (State.acts_applyTalk (Talk.bind_sound _ _ _))
    · exact State.acts_setEntry used fun _ => ⟨by decide, le_rfl⟩

theorem State.acts_claimStep (used : slot.val < s.slots) : s.Acts (s.claimStep slot) := by
  unfold State.claimStep
  split
  · exact .refl s
  · split
    · exact .refl s
    · split
      · exact .refl s
      · split
        · split
          · exact .refl s
          · split
            · exact State.acts_offerBinding used _
            · exact State.acts_setEntry used fun _ => Nat.zero_le _
        · exact .ite fun _ => State.acts_setEntry used fun _ => trivial
        · exact .ite fun _ => (State.acts_slotUnbound _ _).after (State.acts_setEntry used fun _ => trivial)
        · exact .refl s

theorem State.acts_abandonStep (used : slot.val < s.slots) : s.Acts (s.abandonStep slot) :=
  .ite fun _ => by
    split
    · exact (State.acts_slotUnbound _ _).after (State.acts_setEntry used fun _ => ⟨by decide, le_rfl⟩)
    all_goals exact .refl s

theorem State.acts_countdownStep (used : slot.val < s.slots) (before : Entry) :
    s.Acts (s.countdownStep slot before) := by
  unfold State.countdownStep
  split
  case h_1 entry =>
    refine .ite fun _ => State.acts_setEntry used fun bounded => ?_
    have range := bounded.quarantine entry
    split
    · trivial
    · exact ⟨by omega, by omega⟩
  all_goals exact .refl s

theorem State.acts_slotStep (used : slot.val < s.slots) : s.Acts (s.slotStep slot) := by
  have first := State.acts_evidenceStep used
  have second := first.trans (State.acts_silenceStep (first.slots ▸ used))
  have third := second.trans (State.acts_ownStep (second.slots ▸ used))
  have fourth := third.trans (State.acts_claimStep (third.slots ▸ used))
  have fifth := fourth.trans (State.acts_abandonStep (fourth.slots ▸ used))
  exact fifth.trans (State.acts_countdownStep (fifth.slots ▸ used) _)

end

theorem State.mem_usedSlots {s : State} {slot : Slot} : slot ∈ s.usedSlots ↔ slot.val < s.slots := by
  simp [State.usedSlots]

theorem State.acts_settle (s : State) : s.Acts s.settle :=
  (State.acts_setBoundary _ _).after (State.acts_setSmap _ _ _ _ _)

theorem State.acts_slotMapWork (s : State) : s.Acts s.slotMapWork :=
  .ite fun _ => by
    have begun : s.Acts (s.setBoundary { s.boundary with slotMap := false }) := s.acts_setBoundary _
    dsimp only
    split
    · exact begun.trans (State.acts_setStc_same _ _ _)
    · refine (begun.trans (.foldl fun t acts slot member => State.acts_slotStep ?_)).trans (State.acts_settle _)
      rw [acts.slots]
      exact State.mem_usedSlots.mp member

/-! ## The Station Controller -/

theorem State.acts_stopLink (s : State) : s.Acts s.stopLink :=
  (State.acts_setBoundary _ _).after <| (State.acts_setRtm _ _).after <|
    State.acts_setLif_same _ _ _ _

theorem State.acts_unbindChannels (s : State) : s.Acts s.unbindChannels :=
  (s.acts_eachTalk Talk.leaveLink_sound).trans (State.acts_eachListen _ Listen.leaveLink_sound)

theorem State.unbindChannels_stc (s : State) : s.unbindChannels.stc = s.stc := by
  simp [State.unbindChannels]

/-- The station off the link at the end of a leave, before STC's own fields follow (R30). -/
def State.offLink (s : State) : State := (s.stopLink.setSmap s.stopLink.smap.freed).unbindChannels

theorem State.enterReady_eq (s : State) : s.enterReady = (s.offLink.setStc { s.offLink.stc with
    state := .ready, leavePending := false, leaveMarks := Vector.replicate 8 false }).post
      (event .linkLeft s.smap.ownCount) := by
  simp only [State.enterReady, State.offLink]

theorem State.offLink_stc (s : State) : s.offLink.stc = s.stc := State.unbindChannels_stc _

theorem State.acts_offLink (s : State) : s.Acts s.offLink :=
  (State.acts_unbindChannels _).after ((State.acts_setSmap_freed _).after s.acts_stopLink)

/-- A leave ends from a link state only (R27, R29). -/
theorem State.acts_enterReady {s : State} (started : s.stc.state ≠ .off) (sound : s.stc.state ≠ .fault) :
    s.Acts s.enterReady := by
  rw [State.enterReady_eq, State.offLink_stc]
  refine (State.acts_post _ _).after (State.Acts.after (State.acts_setStc (fun consistent => ?_) ?_) s.acts_offLink)
  · rw [State.offLink_stc] at consistent
    exact {
      cause := by simpa [sound] using consistent.cause
      start := by simpa [started] using consistent.start
      inRange := consistent.inRange
      learn := consistent.learn
      learning := by simp
      rounds := consistent.rounds
      errors := consistent.errors }
  · rw [State.offLink_stc]

/-- The station with a fault cause taken, before the notice of it (R31). -/
def State.faulted (s : State) (cause : FaultCause) : State := s.setStc { s.stc with
  state := .fault, cause := some cause, leavePending := false, leaveMarks := Vector.replicate 8 false, report := none }

/-- The fault notice at every block (R32). -/
def State.faultNotice (s : State) : State :=
  (s.stopLink.setSmap s.stopLink.smap.emptied).withdrawAll.unbindChannels

theorem State.enterFault_eq (s : State) (cause : FaultCause) (slot : Option Slot) (tag : Option Tag) :
    s.enterFault cause slot tag =
      ((s.faulted cause).post (event .faultEntered cause.code (slot := slot) (tag := tag))).faultNotice := rfl

theorem State.acts_faulted {s : State} (started : s.stc.state ≠ .off) (cause : FaultCause) :
    s.Acts (s.faulted cause) :=
  State.acts_setStc (fun h =>
    { cause := by simp
      start := by simpa [started] using h.start
      inRange := h.inRange
      learn := h.learn
      learning := by simp
      rounds := h.rounds
      errors := h.errors }) rfl

theorem State.acts_faultNotice (s : State) : s.Acts s.faultNotice :=
  (State.acts_unbindChannels _).after <| (State.acts_withdrawAll _).after <|
    State.Acts.after (State.acts_setSmap (s := s.stopLink) _ _ _ _ _) s.acts_stopLink

/-- FAULT is entered from a state in which the station holds a START record (R31). -/
theorem State.acts_enterFault {s : State} (started : s.stc.state ≠ .off) (cause : FaultCause) (slot : Option Slot)
    (tag : Option Tag) : s.Acts (s.enterFault cause slot tag) :=
  (State.acts_faultNotice _).after ((State.acts_post _ _).after (State.acts_faulted started cause))

theorem State.acts_takeReport (s : State) : s.Acts s.takeReport := by
  unfold State.takeReport
  split
  · exact .refl s
  · split
    case isTrue takes =>
      refine State.acts_enterFault (fun off => ?_) _ _ _
      rw [off] at takes
      cases takes
    case isFalse => exact State.acts_setStc_same _ _ _

theorem countUp_le (limit count n : Nat) : countUp limit count n ≤ limit := Nat.min_le_left _ _

theorem State.acts_countError (s : State) : s.Acts s.countError :=
  .ite fun _ => State.acts_setStc (fun h =>
    { cause := h.cause, start := h.start, inRange := h.inRange, learn := h.learn, learning := h.learning,
      rounds := h.rounds, errors := countUp_le _ _ _ }) rfl

theorem State.acts_windowRound (s : State) : s.Acts s.windowRound := by
  unfold State.windowRound
  split
  case isTrue below =>
    exact State.acts_setStc (fun h =>
      { cause := h.cause, start := h.start, inRange := h.inRange, learn := h.learn, learning := h.learning,
        rounds := below, errors := h.errors }) rfl
  case isFalse =>
    have ended : s.Acts (s.setStc { s.stc with
        band := s.stc.band.judged s.stc.windowErrors, windowRounds := 0, windowErrors := 0 }) :=
      State.acts_setStc (fun h =>
        { cause := h.cause, start := h.start, inRange := h.inRange, learn := h.learn, learning := h.learning,
          rounds := Nat.zero_lt_succ 63, errors := Nat.zero_le _ }) rfl
    dsimp only
    split
    · exact ended.trans (State.acts_post _ _)
    · exact ended

theorem State.windowRound_state (s : State) : s.windowRound.stc.state = s.stc.state := by
  unfold State.windowRound
  split
  · rfl
  · dsimp only
    split
    · rw [State.post_stc]
      rfl
    · rfl

theorem State.acts_learnRound {s : State} (listening : s.stc.state = .listening) : s.Acts s.learnRound := by
  unfold State.learnRound
  dsimp only
  split
  case isTrue learned =>
    refine (State.acts_post _ _).after (State.acts_setStc (fun h => ?_) rfl)
    exact {
      cause := by simpa [listening] using h.cause
      start := by simpa [listening] using h.start
      inRange := h.inRange
      learn := h.learning listening
      learning := by simp
      rounds := h.rounds
      errors := h.errors }
  case isFalse more =>
    have below : s.stc.learn + 1 < 8 := Nat.not_le.mp more
    exact State.acts_setStc (fun h =>
      { cause := h.cause, start := h.start, inRange := h.inRange, learn := below.le, learning := fun _ => below,
        rounds := h.rounds, errors := h.errors }) rfl

theorem State.acts_leaveRelease (s : State) (k : TalkId) : s.Acts (s.leaveRelease k) :=
  .ite fun may => by
    simp only [Bool.and_eq_true, Bool.not_eq_true'] at may
    exact (State.acts_setStc_same _ _ _).after (State.acts_joinRelease may.1.2)

theorem State.acts_leaveReleases (s : State) : s.Acts s.leaveReleases := .foldl fun t _ k _ => t.acts_leaveRelease k

theorem State.leaveRelease_state (s : State) (k : TalkId) : (s.leaveRelease k).stc.state = s.stc.state := by
  unfold State.leaveRelease
  split <;> rfl

theorem State.leaveReleases_state (s : State) : s.leaveReleases.stc.state = s.stc.state := by
  unfold State.leaveReleases
  generalize List.finRange 8 = ks
  induction ks generalizing s with
  | nil => rfl
  | cons k ks ih => exact (ih _).trans (s.leaveRelease_state k)

theorem State.acts_stationRound (s : State) : s.Acts s.stationRound := by
  have begun : s.Acts (s.setBoundary { s.boundary with station := false }) := s.acts_setBoundary _
  unfold State.stationRound
  dsimp only
  split
  case h_1 listening =>
    rw [State.setBoundary_stc] at listening
    split
    · refine (begun.trans (State.acts_windowRound _)).trans (State.acts_enterReady ?_ ?_) <;>
        rw [State.windowRound_state, State.setBoundary_stc, listening] <;> decide
    · exact (begun.trans (State.acts_learnRound listening)).trans (State.acts_windowRound _)
  case h_2 => exact begun.trans (State.acts_windowRound _)
  case h_3 leaving =>
    rw [State.setBoundary_stc] at leaving
    have released := (begun.trans (State.acts_leaveReleases _)).trans (State.acts_windowRound _)
    split
    · refine released.trans (State.acts_enterReady ?_ ?_) <;>
        rw [State.windowRound_state, State.leaveReleases_state, State.setBoundary_stc, leaving] <;> decide
    · exact released
  all_goals exact begun

theorem State.acts_finishOthers (s : State) : s.Acts s.finishOthers :=
  ((s.acts_slotMapWork.trans (State.acts_claimWork _)).trans (State.acts_talkWork _)).trans (State.acts_listenWork _)

theorem State.acts_stationWork (s : State) : s.Acts s.stationWork :=
  .ite fun _ => (State.Acts.trans (.ite fun _ => s.acts_finishOthers) (State.acts_stationRound _)).trans
    (State.acts_takeReport _)

theorem State.acts_finishBoundary (s : State) : s.Acts s.finishBoundary :=
  (s.acts_finishOthers.trans (State.acts_takeReport _)).trans (State.acts_stationWork _)

/-! ## The Round Timer and the Line Interface -/

theorem State.acts_elementRead (s : State) (start : Nat) (bits : List Bool) : s.Acts (s.elementRead start bits) :=
  State.acts_setLif_same _ _ _ _

theorem State.started_of_inLink {s : State} (h : s.inLink = true) : s.stc.state ≠ .off := by
  intro off
  simp [State.inLink, off, StationState.inLink] at h

theorem State.acts_lineStuck {s : State} (started : s.stc.state ≠ .off) : s.Acts s.lineStuck := by
  have flagged : s.Acts (s.setFlags { s.hpt.flags with lineStuck := true }) :=
    State.acts_setFlags rfl rfl id (fun _ => rfl) id
  refine flagged.trans (State.acts_enterFault ?_ _ _ _)
  exact started

theorem State.acts_timed {s : State} (started : s.stc.state ≠ .off) {time : Nat} {f : State → State}
    (acts : ∀ t : State, t.stc.state ≠ .off → t.Acts (f t)) : s.Acts (s.timed time f) := by
  unfold State.timed
  split
  · exact State.acts_lineStuck started
  · exact (s.acts_reach time).trans (acts _ started)

theorem State.acts_markerEarlyError (s : State) : s.Acts s.markerEarlyError :=
  (State.acts_countError _).after (State.acts_setLif fun h => ⟨countUp_le _ _ _, h.claimCheck, h.burstCheck⟩)

theorem State.acts_claimCheckError (s : State) : s.Acts s.claimCheckError :=
  (State.acts_countError _).after (State.acts_setLif fun h => ⟨h.markerEarly, countUp_le _ _ _, h.burstCheck⟩)

theorem State.acts_burstCheckError (s : State) : s.Acts s.burstCheckError :=
  (State.acts_countError _).after (State.acts_setLif fun h => ⟨h.markerEarly, h.claimCheck, countUp_le _ _ _⟩)

theorem State.acts_lineRead {s : State} (started : s.stc.state ≠ .off) (began : Nat) (bits : List Bool) :
    s.Acts (s.lineRead began bits) :=
  State.acts_timed (f := fun t => t.setLif { t.lif with
    lastDominant := t.dominantAfter began (s.bitsRead began bits) }) started
    fun _ _ => State.acts_setLif_same _ _ _ _

theorem State.acts_closeRecord (s : State) : s.Acts s.closeRecord :=
  .ite fun _ => .foldl fun t _ _ _ => .ite fun _ => t.acts_observe _ _

theorem State.acts_acceptMarker (s : State) (began : Nat) (bits : BitVec 24) : s.Acts (s.acceptMarker began bits) :=
  (State.acts_setBoundary _ _).after <|
    (State.acts_setLif_same _ _ _ _).after <|
    (State.acts_setRtm _ _).after s.acts_closeRecord

theorem State.acts_shapeMismatch {s : State} (started : s.stc.state ≠ .off) : s.Acts s.shapeMismatch := by
  have flagged : s.Acts (s.setFlags { s.hpt.flags with shapeMismatch := true }) :=
    State.acts_setFlags rfl rfl (fun _ => rfl) id id
  unfold State.shapeMismatch
  dsimp only
  split
  · refine flagged.trans (State.acts_enterFault ?_ _ _ _)
    exact started
  · exact flagged.trans (State.acts_setRtm _ _)

theorem State.acts_judgeMarker {s : State} (started : s.stc.state ≠ .off) (began : Nat) (bits : BitVec 24) :
    s.Acts (s.judgeMarker began bits) := by
  have read := s.acts_elementRead began (bitsOf bits)
  unfold State.judgeMarker
  dsimp only
  split
  · exact read
  · split
    · exact (State.acts_shapeMismatch (s := s.elementRead began (bitsOf bits)) started).after read
    · split
      · exact read.trans (State.acts_acceptMarker _ _ _)
      · exact read.trans (State.acts_markerEarlyError _)

theorem State.acts_heardMarker (s : State) (began : Nat) (bits : BitVec 24) : s.Acts (s.heardMarker began bits) :=
  .ite fun inLink => by
    have started := State.started_of_inLink inLink
    split
    · exact State.acts_timed started fun _ on => State.acts_judgeMarker on _ _
    · split
      · exact State.acts_timed started fun _ on => State.acts_judgeMarker on _ _
      · exact State.acts_lineRead started _ _
    all_goals exact .refl s

theorem State.acts_markerSent (s : State) : s.Acts s.markerSent :=
  .ite fun inLink => by
    split
    · exact State.acts_timed (State.started_of_inLink inLink) fun t _ => t.acts_acceptMarker _ _
    all_goals exact .refl s

theorem State.acts_beginMarker (s : State) (time : Nat) : s.Acts (s.beginMarker time) :=
  State.acts_setLif_same _ _ _ _

theorem State.acts_reachPeriod (s : State) (lineIdle : Bool) : s.Acts (s.reachPeriod lineIdle) :=
  .ite fun _ => (s.acts_reach _).trans (.ite fun _ => State.acts_beginMarker _ _)

theorem State.acts_lineIdleMarker (s : State) (time : Nat) : s.Acts (s.lineIdleMarker time) :=
  .ite fun may => by
    simp only [Bool.and_eq_true] at may
    exact State.acts_timed (State.started_of_inLink may.1.1) fun t _ => t.acts_beginMarker _

theorem State.acts_recognitionEnded (s : State) (began matched : Nat) : s.Acts (s.recognitionEnded began matched) :=
  .ite fun may => by
    simp only [Bool.and_eq_true] at may
    exact State.acts_lineRead (State.started_of_inLink may.1.1.1) _ _

theorem State.acts_stuckTimeout (s : State) : s.Acts s.stuckTimeout :=
  .ite fun inLink => State.acts_lineStuck (State.started_of_inLink inLink)

theorem State.acts_openWindow (s : State) : s.Acts s.openWindow :=
  .ite fun _ => (State.acts_setLif_same _ _ _ _).after <|
    (State.acts_reach _ _).after s.acts_chooseMessage

theorem State.acts_endWindow (s : State) (line : BitVec 28) : s.Acts (s.endWindow line) := by
  unfold State.endWindow
  split
  case h_1 sent _ =>
    have read : s.Acts (if windowEmpty sent line then s.setLif { s.lif with activity := .idle }
        else s.elementRead Config.windowOpens (bitsOf line)) := by
      split
      · exact State.acts_setLif_same _ _ _ _
      · exact s.acts_elementRead _ _
    refine (State.acts_windowResult _ _).after <| State.Acts.after (.ite fun _ => State.acts_claimCheckError _) <|
      (State.acts_setSmap _ _ _ _ _).after <| (State.acts_reach _ _).after read
  all_goals exact .refl s

theorem State.acts_openSlot (s : State) (startRecessive : Bool) : s.Acts (s.openSlot startRecessive) := by
  unfold State.openSlot
  split
  · exact .refl s
  case h_2 slot _ =>
    refine .ite fun _ => ?_
    have opened : s.Acts ((s.setLif { s.lif with opened := s.lif.opened + 1 }).reach (slotTime slot.val)) :=
      (State.acts_reach _ _).after (State.acts_setLif_same _ _ _ _)
    dsimp only
    split
    · exact (State.acts_setLif_same _ _ _ _).after <|
        (State.acts_setTalk (Talk.afterBurst_sound _)).after opened
    · unfold State.sampleSlot
      split
      · exact (opened.trans (State.acts_reach _ _)).trans (State.acts_observe _ _ _)
      · exact (State.acts_setLif_same _ _ _ _).after opened

theorem State.acts_handBurst (s : State) (slot : Slot) (b : Burst) : s.Acts (s.handBurst slot b) :=
  s.acts_eachListen fun ctx l => l.take_sound ctx slot b

theorem State.acts_reportSent (s : State) (slot : Slot) : s.Acts (s.reportSent slot) := by
  unfold State.reportSent
  split
  · exact State.acts_applyTalk (Talk.sent_sound _ _)
  · exact .refl s

theorem State.acts_endOwnBurst (s : State) (readback : LineBurst) : s.Acts (s.endOwnBurst readback) := by
  unfold State.endOwnBurst
  split
  case h_1 slot sent _ =>
    have reported := (((s.acts_elementRead (slotTime slot.val) (readback.bits sent.words.length)).trans
      (State.acts_reach _ (slotTime slot.val + burstBits sent.words.length))).trans
      (State.acts_observe _ slot (sentObservation sent readback))).trans (State.acts_reportSent _ slot)
    dsimp only
    split
    · exact reported.trans (State.acts_handBurst _ _ _)
    · exact reported
  all_goals exact .refl s

theorem State.acts_endHeardBurst (s : State) (burst : LineBurst) : s.Acts (s.endHeardBurst burst) := by
  unfold State.endHeardBurst
  split
  case h_1 slot _ =>
    have read := (s.acts_elementRead (slotTime slot.val) burst.received).trans
      (State.acts_reach _ (slotTime slot.val + burst.received.length))
    dsimp only
    split
    · exact (read.trans (State.acts_observe _ _ _)).trans (State.acts_handBurst _ _ _)
    · exact (read.trans (State.acts_observe _ _ _)).trans (State.acts_burstCheckError _)
  all_goals exact .refl s

end Sys2Proof.Machine

/-! The host's commands keep the bounds and laws too, and so does every step (R41, R65, R88, R141, R148, R167). -/

namespace Sys2Proof.Machine

/-! ## Updates the host's commands make -/

theorem State.keeps_setHpt (s : State) (v : Hpt) : s.Keeps (s.setHpt v) :=
  .of_eq rfl rfl rfl rfl rfl rfl rfl rfl
theorem State.keeps_setRstHeld (s : State) (v : Bool) : s.Keeps (s.setRstHeld v) :=
  .of_eq rfl rfl rfl rfl rfl rfl rfl rfl
theorem State.keeps_withPending (s : State) (commands : List Instr) : s.Keeps (s.withPending commands) :=
  .of_eq rfl rfl rfl rfl rfl rfl rfl rfl
theorem State.keeps_answer (s : State) (result : ResultCode) (code : BitVec 8) : s.Keeps (s.answer result code) :=
  s.keeps_setHpt _
theorem State.keeps_copy (s : State) (word : Nat → Word) : s.Keeps (s.copy word) :=
  s.keeps_setHpt _

theorem State.keeps_setEvq {s : State} {v : Evq} (places : s.eventsBounded → v.queue.length ≤ 32)
    (dropped : s.evq.dropped ≤ 65535 → v.dropped ≤ 65535) : s.Keeps (s.setEvq v) :=
  ⟨id, id, id, id, id, fun _ => .refl _, fun _ => .refl _, id, places, dropped⟩

theorem State.Keeps.after {s t u : State} (g : t.Keeps u) (h : s.Keeps t) : s.Keeps u := h.trans g

/-- An immediate command keeps what its effect keeps. -/
theorem State.keeps_answered {s : State} (code : BitVec 8) {o : ResultCode × State} (h : s.Keeps o.2) :
    s.Keeps (answered code o) :=
  h.trans (o.2.keeps_answer _ _)

/-! ## Resets -/

theorem Talk.clear_dropped : Talk.clear.toChannelCore.Dropped := ⟨rfl, rfl, rfl, rfl⟩
theorem Listen.clear_dropped : Listen.clear.toChannelCore.Dropped := ⟨rfl, rfl, rfl, rfl⟩

theorem Stc.powerOn_consistent : Stc.powerOn.Consistent :=
  { cause := by decide, start := by decide, inRange := nofun, learn := Nat.zero_le _
    learning := nofun, rounds := Nat.zero_lt_succ _, errors := Nat.zero_le _ }

theorem Mpt.absorbAll_bounded {m : Mpt} (h : m.outstanding.length ≤ 4) :
    m.absorbAll.outstanding.length ≤ 4 ∧ m.absorbAll.absorb ≤ m.absorbAll.outstanding.length :=
  ⟨h, le_rfl⟩

/-- Every reset clears the map, the claim queue and the channels; STC, LIF, the Memory Port and the event queue are to be
shown. -/
theorem State.keeps_reset {s : State} {stc : Stc} {lif : Lif} {mpt : Mpt} {hpt : Hpt} {evq : Evq} {held : Bool}
    (consistent : s.stc.Consistent → stc.Consistent) (counted : s.lif.Counted → lif.Counted)
    (port : s.portBounded → mpt.outstanding.length ≤ 4 ∧ mpt.absorb ≤ mpt.outstanding.length)
    (events : evq.queue.length ≤ 32) (dropped : evq.dropped ≤ 65535) :
    s.Keeps { State.reset with stc, lif, mpt, hpt, evq, rstHeld := held, pending := s.pending } where
  stc := consistent
  errors := counted
  map _ i := by
    rw [show ({ State.reset with stc, lif, mpt, hpt, evq, rstHeld := held, pending := s.pending } : State).smap =
      Smap.clear from rfl, Smap.clear_entries]
    trivial
  unused _ i _ := Smap.clear_entries i
  claims _ := List.nodup_nil
  talk k := by
    have clear : (Vector.replicate 8 Talk.clear)[k] = .clear := Vector.getElem_replicate _
    rw [show ({ State.reset with stc, lif, mpt, hpt, evq, rstHeld := held, pending := s.pending } : State).talk[k] =
      .clear from clear]
    exact .of_dropped Talk.clear_dropped rfl
  listen k := by
    have clear : (Vector.replicate 8 Listen.clear)[k] = .clear := Vector.getElem_replicate _
    rw [show ({ State.reset with stc, lif, mpt, hpt, evq, rstHeld := held, pending := s.pending } : State).listen[k] =
      .clear from clear]
    exact .of_dropped Listen.clear_dropped rfl rfl
  port := port
  events _ := events
  dropped _ := dropped

theorem State.keeps_powerOn (s : State) : s.Keeps s.powerOn :=
  State.keeps_reset (fun _ => Stc.powerOn_consistent) (fun _ => ⟨by decide, by decide, by decide⟩)
    (fun _ => by decide) (Nat.zero_le _) (Nat.zero_le _)

theorem State.keeps_pinReset (s : State) : s.Keeps s.pinReset :=
  State.keeps_reset (fun _ => Stc.powerOn_consistent) (fun _ => ⟨by decide, by decide, by decide⟩)
    (fun h => Mpt.absorbAll_bounded h.1) (Nat.zero_le _) (Nat.zero_le _)

theorem State.keeps_commandReset (s : State) : s.Keeps s.commandReset := by
  refine State.keeps_reset (fun h => ?_) (fun h => ⟨h.markerEarly, h.claimCheck, h.burstCheck⟩)
    (fun h => Mpt.absorbAll_bounded h.1) (by decide) (Nat.zero_le _)
  cases start : s.stc.start with
  | none => exact .congr rfl rfl rfl rfl rfl rfl Stc.powerOn_consistent
  | some r =>
    exact {
      cause := by simp [Stc.powerOn]
      start := by simp
      inRange := fun q hq => h.inRange q (start ▸ hq)
      learn := Nat.zero_le _
      learning := by simp
      rounds := Nat.zero_lt_succ _
      errors := Nat.zero_le _ }

/-! ## The commands of STC -/

/-- A START record in range, taken in OFF (R23). -/
theorem Stc.Consistent.started {c : Stc} (h : c.Consistent) (off : c.state = .off) {r : StartRecord}
    (range : r.inRange) : Stc.Consistent { c with start := some r, state := .ready } where
  cause := by simpa [off] using h.cause
  start := by simp
  inRange q hq := by cases hq; exact range
  learn := h.learn
  learning := by simp
  rounds := h.rounds
  errors := h.errors

theorem State.keeps_startCommand (s : State) : s.Keeps s.startCommand.2 := by
  unfold State.startCommand
  split
  · exact .refl s
  case isFalse off =>
    split
    · exact .refl s
    case h_2 r spelled =>
      have off : s.stc.state = .off := by simpa using off
      obtain ⟨-, -, -, -, -, range⟩ := startRecordOf_eq_some.mp spelled
      exact ⟨fun h => h.started off range, id, ((s.setStc _).acts_setSmap_freed s.smap).map,
        fun _ i _ => s.smap.freed_entries i, id, fun _ => .refl _, fun _ => .refl _, id, id, id⟩

/-- The values of JOIN (R22). -/
theorem Stc.Consistent.joining {c : Stc} (h : c.Consistent) (ready : c.state = .ready) :
    Stc.Consistent { Stc.powerOn with state := .listening, start := c.start } where
  cause := by simp [Stc.powerOn]
  start := by simpa [ready] using h.start
  inRange := h.inRange
  learn := Nat.zero_le _
  learning _ := Nat.zero_lt_succ _
  rounds := Nat.zero_lt_succ _
  errors := Nat.zero_le _

/-- JOIN in READY (R25): nothing but STC, RTM, SMAP and LIF changes. -/
theorem State.keeps_joinCommand (s : State) : s.Keeps s.joinCommand.2 := by
  unfold State.joinCommand
  split
  · exact .refl s
  case isFalse ready =>
    have ready : s.stc.state = .ready := by simpa using ready
    refine ⟨fun h => h.joining ready, fun h => ⟨h.markerEarly, h.claimCheck, h.burstCheck⟩, fun _ i => ?_,
      fun _ i _ => Smap.clear_entries i, id, fun _ => .refl _, fun _ => .refl _, id, id, id⟩
    show Smap.clear.entries[i].bounded
    rw [Smap.clear_entries]
    trivial

theorem State.acts_beforeLeave (s : State) : s.Acts s.beforeLeave := by
  unfold State.beforeLeave
  split
  · exact .refl s
  · exact s.acts_finishOthers

theorem State.acts_markReleases (s : State) : s.Acts s.markReleases :=
  .foldl fun _ _ _ _ => .ite fun _ => State.acts_setStc_same _ _ _

theorem State.acts_leaving {s : State} (joined : s.stc.state = .joined) :
    s.Acts (s.setStc { s.stc with state := .leaving, leaveMarks := Vector.replicate 8 false }) :=
  State.acts_setStc (fun h =>
    { cause := by simpa [joined] using h.cause
      start := by simpa [joined] using h.start
      inRange := h.inRange
      learn := h.learn
      learning := by simp
      rounds := h.rounds
      errors := h.errors }) rfl

/-! ## What the boundary's other blocks leave of STC (R62) -/

@[simp] theorem State.slotLost_stc (s : State) (slot : Slot) (cause : LossCause) (station : Option StationId) :
    (s.slotLost slot cause station).stc = s.stc := by
  unfold State.slotLost
  split <;> simp

@[simp] theorem State.slotUnbound_stc (s : State) (slot : Slot) : (s.slotUnbound slot).stc = s.stc := by
  unfold State.slotUnbound
  split <;> simp

theorem State.evidenceStep_stc (s : State) (slot : Slot) : (s.evidenceStep slot).stc = s.stc := by
  unfold State.evidenceStep
  repeat' split
  all_goals simp

theorem State.silenceStep_stc (s : State) (slot : Slot) : (s.silenceStep slot).stc = s.stc := by
  unfold State.silenceStep
  split <;> rfl

theorem State.ownStep_stc (s : State) (slot : Slot) : (s.ownStep slot).stc = s.stc := by
  unfold State.ownStep
  repeat' split
  all_goals simp

theorem State.offerBinding_stc (s : State) (slot : Slot) (tag : Tag) : (s.offerBinding slot tag).stc = s.stc := by
  unfold State.offerBinding
  repeat' split
  all_goals simp

theorem State.claimStep_stc (s : State) (slot : Slot) : (s.claimStep slot).stc = s.stc := by
  unfold State.claimStep
  repeat' split
  all_goals simp [State.offerBinding_stc]

theorem State.abandonStep_stc (s : State) (slot : Slot) : (s.abandonStep slot).stc = s.stc := by
  unfold State.abandonStep
  repeat' split
  all_goals simp

theorem State.countdownStep_stc (s : State) (slot : Slot) (before : Entry) :
    (s.countdownStep slot before).stc = s.stc := by
  unfold State.countdownStep
  repeat' split
  all_goals rfl

@[simp] theorem State.slotStep_stc (s : State) (slot : Slot) : (s.slotStep slot).stc = s.stc := by
  simp only [State.slotStep, State.countdownStep_stc, State.abandonStep_stc, State.claimStep_stc, State.ownStep_stc,
    State.silenceStep_stc, State.evidenceStep_stc]

theorem State.foldl_stc {α : Type} {f : State → α → State} (step : ∀ t x, (f t x).stc = t.stc) (s : State)
    (xs : List α) : (xs.foldl f s).stc = s.stc := by
  induction xs generalizing s with
  | nil => rfl
  | cons x xs ih => exact (ih _).trans (step s x)

@[simp] theorem State.endRequest_stc (s : State) (k : TalkId) (outcome : EventRecord) :
    (s.endRequest k outcome).stc = s.stc := by
  simp [State.endRequest]

theorem State.claimWork_stc (s : State) : s.claimWork.stc = s.stc := by
  unfold State.claimWork
  split
  · refine (State.foldl_stc (fun t r => ?_) _ _).trans ((State.foldl_stc (fun t r => ?_) _ _).trans rfl)
    · unfold State.settleRelease
      split <;> simp
    · unfold State.settleWon
      split <;> simp
  · rfl

theorem State.talkWork_stc (s : State) : s.talkWork.stc = s.stc := by
  unfold State.talkWork
  split <;> simp

theorem State.resolveListen_stc (s : State) (k : ListenId) : (s.resolveListen k).stc = s.stc := by
  unfold State.resolveListen
  split <;> simp

theorem State.listenWork_stc (s : State) : s.listenWork.stc = s.stc := by
  unfold State.listenWork
  split
  · exact (State.foldl_stc State.resolveListen_stc _ _).trans (by simp)
  · rfl

/-- Of STC only the duplicate-id report can change while SMAP works (R48). -/
theorem State.slotMapWork_stc (s : State) : s.slotMapWork.stc = { s.stc with report := s.slotMapWork.stc.report } := by
  unfold State.slotMapWork
  split
  · dsimp only
    split
    · rfl
    · have same := State.foldl_stc State.slotStep_stc (s.setBoundary { s.boundary with slotMap := false })
        (s.setBoundary { s.boundary with slotMap := false }).usedSlots
      rw [State.settle, State.setBoundary_stc, State.setSmap_stc, same, State.setBoundary_stc]
  · rfl

/-- Of STC only the duplicate-id report can change while the other blocks do their work (R62). -/
theorem State.finishOthers_stc (s : State) : s.finishOthers.stc = { s.stc with report := s.finishOthers.stc.report } := by
  rw [State.finishOthers, State.listenWork_stc, State.talkWork_stc, State.claimWork_stc]
  exact s.slotMapWork_stc

theorem State.finishOthers_state (s : State) : s.finishOthers.stc.state = s.stc.state := by
  rw [State.finishOthers_stc]

theorem State.beforeLeave_state (s : State) : s.beforeLeave.stc.state = s.stc.state := by
  unfold State.beforeLeave
  split
  · rfl
  · exact s.finishOthers_state

theorem State.acts_leaveJoined {s : State} (joined : s.stc.state = .joined) : s.Acts s.leaveJoined :=
  (State.acts_leaveReleases _).after <| (State.acts_markReleases _).after <| (State.acts_withdrawClaims _).after <|
    (State.acts_leaving (s.beforeLeave_state.trans joined)).after s.acts_beforeLeave

theorem State.acts_leftFault {s : State} (fault : s.stc.state = .fault) : s.Acts s.leftFault := by
  refine (State.acts_setSmap_freed _).after (State.acts_setStc (fun h => ?_) rfl)
  exact {
    cause := by simp
    start := by simpa [fault] using h.start
    inRange := h.inRange
    learn := h.learn
    learning := by simp
    rounds := h.rounds
    errors := h.errors }

theorem State.acts_leaveCommand (s : State) : s.Acts s.leaveCommand.2 := by
  unfold State.leaveCommand
  split
  · dsimp only
    exact State.acts_setStc_same _ _ _
  case h_2 joined =>
    dsimp only
    exact State.acts_leaveJoined joined
  case h_3 fault =>
    dsimp only
    exact (State.acts_leftFault fault).trans (State.acts_post _ _)
  all_goals exact .refl s

/-! ## The commands that name a channel -/

theorem State.acts_openTalkCommand (s : State) : s.Acts s.openTalkCommand.2 := by
  unfold State.openTalkCommand
  split
  · exact .refl s
  · split
    · exact .refl s
    · split
      · exact .refl s
      case isFalse closed =>
        dsimp only
        refine State.acts_applyTalk ?_
        exact Talk.opened_sound _ _ (by simpa using closed)

theorem State.acts_openListenCommand (s : State) : s.Acts s.openListenCommand.2 := by
  unfold State.openListenCommand
  split
  · exact .refl s
  · split
    · exact .refl s
    · split
      · exact .refl s
      case isFalse closed =>
        dsimp only
        refine State.acts_applyListen ?_
        exact Listen.opened_sound _ _ (by simpa using closed)

theorem State.Acts.unless {p : Prop} [Decidable p] {s t : State} (h : ¬p → s.Acts t) : s.Acts (if p then s else t) := by
  split
  · exact .refl s
  · exact h ‹_›

/-- The abandon request for the slot of a channel that closes (R45). -/
def State.abandonBound (s : State) (k : TalkId) : State :=
  match s.talk[k].bound with
  | some slot =>
    if s.smap.abandon.contains slot then s else s.setSmap { s.smap with abandon := s.smap.abandon ++ [slot] }
  | none => s

theorem State.closeTalk_eq (s : State) (k : TalkId) : s.closeTalk k =
    (let t := ((s.setTalk k { s.talk[k] with closeTaken := true }).abandonBound k).closeNotice k
     if t.inLink then t else t.applyTalk k Talk.closeComplete) := rfl

theorem State.acts_abandonBound (s : State) (k : TalkId) : s.Acts (s.abandonBound k) := by
  unfold State.abandonBound
  split
  · exact .unless fun _ => State.acts_setSmap _ _ _ _ _
  · exact .refl s

theorem State.acts_closeTalk (s : State) (k : TalkId) : s.Acts (s.closeTalk k) := by
  rw [State.closeTalk_eq]
  refine State.Acts.after (.unless fun _ => State.acts_applyTalk (Talk.closeComplete_sound _ _)) <|
    (State.acts_closeNotice _ _).after <| (State.acts_abandonBound _ _).after <| State.acts_setTalk ?_
  exact .of_same rfl id le_rfl

theorem State.acts_closeListen (s : State) (k : ListenId) : s.Acts (s.closeListen k) := by
  unfold State.closeListen
  refine State.Acts.after (.unless fun _ => State.acts_applyListen (Listen.applyClose_sound _ _)) <|
    State.acts_setListen ?_
  exact .of_same rfl id le_rfl

theorem State.acts_closeCommand (s : State) (code : BitVec 8) : s.Acts (s.closeCommand code) := by
  unfold State.closeCommand
  split
  · exact s.acts_setMailbox _
  · split
    · split
      · exact s.acts_setMailbox _
      · exact (State.acts_closeTalk _ _).after (s.acts_setMailbox _)
    · split
      · exact s.acts_setMailbox _
      · exact (State.acts_closeListen _ _).after (s.acts_setMailbox _)

theorem State.acts_resumeCommand (s : State) (code : BitVec 8) : s.Acts (s.resumeCommand code) := by
  unfold State.resumeCommand
  split
  · exact s.acts_setMailbox _
  · split
    · split
      · exact s.acts_setMailbox _
      · refine State.Acts.after (.unless fun _ => State.acts_applyTalk (Talk.resumed_sound _ _)) <|
          (State.acts_setTalk ?_).after (s.acts_setMailbox _)
        exact .of_same rfl id le_rfl
    · split
      · exact s.acts_setMailbox _
      · refine State.Acts.after (.unless fun _ => State.acts_applyListen (Listen.resumed_sound _ _)) <|
          (State.acts_setListen ?_).after (s.acts_setMailbox _)
        exact .of_same rfl id le_rfl

theorem State.acts_fillWrite (s : State) (c : ChannelId) (value : Word) : s.Acts (s.fillWrite c value) := by
  unfold State.fillWrite
  dsimp only
  split
  · exact State.acts_applyTalk (Talk.fill_sound _ _ _)
  · exact State.acts_applyListen (Listen.fill_sound _ _ _)

theorem State.acts_claimCommand (s : State) : s.Acts s.claimCommand.2 := by
  unfold State.claimCommand
  split
  · exact .refl s
  · split
    · split
      · exact .refl s
      · split
        · exact .refl s
        · split
          · exact .refl s
          · exact State.acts_joinQueue (by simpa [ClaimRequest.new] using ‹¬s.cle.holds _ = true›)
    · exact .refl s

theorem State.acts_releaseCommand (s : State) : s.Acts s.releaseCommand.2 := by
  unfold State.releaseCommand
  split
  · exact .refl s
  · split
    · split
      · exact .refl s
      · split
        · exact .refl s
        · split
          · exact .refl s
          · exact State.acts_joinRelease (by simpa using ‹¬s.cle.holds _ = true›)
    · exact .refl s

/-! ## The register window -/

theorem State.keeps_takeCommand (s : State) (code : BitVec 8) : s.Keeps (s.takeCommand code) := by
  unfold State.takeCommand
  split
  · exact State.keeps_answered code s.keeps_startCommand
  · exact State.keeps_answered code s.keeps_joinCommand
  · exact State.keeps_answered code s.acts_leaveCommand.toKeeps
  · exact s.keeps_commandReset
  · exact State.keeps_answered code s.acts_openTalkCommand.toKeeps
  · exact State.keeps_answered code s.acts_openListenCommand.toKeeps
  · exact (s.acts_closeCommand code).toKeeps
  · exact (s.acts_resumeCommand code).toKeeps
  · exact State.keeps_answered code s.acts_claimCommand.toKeeps
  · exact State.keeps_answered code s.acts_releaseCommand.toKeeps
  · exact State.keeps_answered code ((State.keeps_copy _ _).after s.acts_finishBoundary.toKeeps)
  · exact State.keeps_answered code (s.keeps_copy _)
  · exact s.keeps_answer _ _

theorem State.keeps_codeWrite (s : State) (code : BitVec 8) : s.Keeps (s.codeWrite code) := by
  unfold State.codeWrite
  split
  · exact .refl s
  · split
    · exact s.keeps_commandReset
    · dsimp only
      split
      · exact (State.keeps_setHpt _ _).after (s.keeps_setHpt _)
      all_goals exact (State.keeps_takeCommand _ _).after (s.keeps_setHpt _)

theorem State.keeps_windowWrite (s : State) (index : BitVec 7) (value : Word) :
    s.Keeps (s.windowWrite index value) := by
  unfold State.windowWrite
  dsimp only
  split
  · exact .refl s
  · split
    · exact s.keeps_setHpt _
    · split
      · exact s.keeps_codeWrite _
      · split
        · exact s.keeps_setHpt _
        · split
          · exact (s.acts_fillWrite _ _).toKeeps
          · exact .refl s

/-- A pop frees a place before EVENTS_LOST takes one (R169, R170). -/
theorem State.keeps_popRecord (s : State) : s.Keeps s.popRecord := by
  unfold State.popRecord
  split
  · exact .refl s
  · split
    · exact State.keeps_setEvq id id
    case h_2 r rest queue =>
      have shorter : s.eventsBounded → rest.length + 1 ≤ 32 := fun bounded => by
        simpa [State.eventsBounded, queue] using bounded
      split
      · exact State.keeps_setEvq (fun bounded => (Nat.le_succ _).trans (shorter bounded)) id
      · refine State.keeps_setEvq (fun bounded => ?_) fun _ => Nat.zero_le _
        rw [List.length_append]
        exact shorter bounded

/-! ## Every command and every step -/

/-- An event that is not the host's keeps the bounds, the laws and the host's side. -/
theorem exec_acts {i : Instr} (other : fromHost i = false) {s t : State} (h : exec i s = .next t) : s.Acts t := by
  have boundary := s.acts_finishBoundary
  cases i with
  | periodReached lineIdle => cases h; exact boundary.trans (State.acts_reachPeriod _ _)
  | lineIdleMarker time => cases h; exact boundary.trans (State.acts_lineIdleMarker _ _)
  | ownMarkerSent => cases h; exact boundary.trans (State.acts_markerSent _)
  | heardMarker began bits => cases h; exact boundary.trans (State.acts_heardMarker _ _ _)
  | lineStuckTimeout => cases h; exact boundary.trans (State.acts_stuckTimeout _)
  | faultEntry => cases h; exact s.acts_takeReport
  | claimWindowOpen => cases h; exact boundary.trans (State.acts_openWindow _)
  | claimWindowResult line => cases h; exact s.acts_endWindow line
  | slotOpen startRecessive => cases h; exact s.acts_openSlot startRecessive
  | burstSent readback => cases h; exact s.acts_endOwnBurst readback
  | burstReceived burst => cases h; exact s.acts_endHeardBurst burst
  | slotMapBoundaryWork => cases h; exact s.acts_slotMapWork
  | claimSettle => cases h; exact s.acts_claimWork
  | talkBoundaryWork => cases h; exact s.acts_talkWork
  | listenBoundaryWork => cases h; exact s.acts_listenWork
  | stationBoundaryWork => cases h; exact s.acts_stationWork
  | arbiterGrant => cases h; exact s.acts_grant
  | memoryResponse error data => cases h; exact s.acts_takeResponse error data
  | markerRecognitionEnded began matched => cases h; exact boundary.trans (State.acts_recognitionEnded _ _ _)
  | _ => cases other

/-- Every command keeps the bounds and the laws. -/
theorem exec_keeps {i : Instr} {s t : State} (h : exec i s = .next t) : s.Keeps t := by
  cases other : fromHost i with
  | false => exact (exec_acts other h).toKeeps
  | true =>
    cases i with
    | fillIndexWrite channel value => cases h; exact s.keeps_windowWrite _ _
    | flagWrite value => cases h; exact s.keeps_windowWrite _ _
    | windowWriteIgnored index value => cases h; exact s.keeps_windowWrite _ _
    | pop => cases h; exact s.keeps_popRecord
    | powerOnReset => cases h; exact s.keeps_powerOn
    | rstNAssert => cases h; exact s.keeps_pinReset
    | rstNRelease => cases h; exact s.keeps_setRstHeld _
    | start | join | leave | reset | openTalk | openListen | close | resume | claim | release | readStatus | readMap
    | unknownCommand _ | lostCommandWrite _ => cases h; exact s.keeps_codeWrite _
    | _ => cases other

theorem step_cases {s t : State} (h : step s = .next t) :
    t = s ∨ ∃ c rest, s.pending = c :: rest ∧ exec c (s.withPending rest) = .next t := by
  unfold step at h
  split at h
  · cases h
    exact .inl rfl
  case h_2 c rest waiting => exact .inr ⟨c, rest, waiting, h⟩

theorem step_keeps {s t : State} (h : step s = .next t) : s.Keeps t := by
  rcases step_cases h with rfl | ⟨c, rest, -, run⟩
  · exact .refl t
  · exact (s.keeps_withPending rest).trans (exec_keeps run)

/-! ## The invariants -/

/-- Settles O53: no operation makes the queue longer than its 32 places. -/
theorem eventQueueStaysWithinItsPlaces : Obligations.EventQueueStaysWithinItsPlaces :=
  fun _ _ bounded h => (step_keeps h).events bounded

/-- Settles O54: a grant needs a free place, and a response takes a request away with its share of the absorb count. -/
theorem memoryPortStaysWithinItsPlaces : Obligations.MemoryPortStaysWithinItsPlaces :=
  fun _ _ bounded h => (step_keeps h).port bounded

/-- Settles O55: a request joins only for a channel without one, and there are 8 talk channels. -/
theorem claimQueueHoldsOneRequestAChannel : Obligations.ClaimQueueHoldsOneRequestAChannel := by
  intro s t distinct h
  have kept : (t.cle.queue.map ClaimRequest.channel).Nodup := (step_keeps h).claims distinct
  have few := kept.length_le_card
  rw [List.length_map, Fintype.card_fin] at few
  exact ⟨kept, few⟩

theorem Stc.consistent_of {s : State} (cause : s.causeOnlyInFault) (start : s.recordExceptInOff)
    (inRange : s.recordInRange) (counts : s.countsBounded) : s.stc.Consistent := by
  obtain ⟨learn, learning, rounds, errors, -⟩ := counts
  exact ⟨cause, start, inRange, learn, learning, rounds, errors⟩

/-- Settles O57: STC's fields agree after every operation, and the counts stop at their limits. -/
theorem stationStaysConsistent : Obligations.StationStaysConsistent := by
  intro s t cause start inRange counts h
  have kept := step_keeps h
  have stc := kept.stc (Stc.consistent_of cause start inRange counts)
  obtain ⟨-, -, -, -, early, claim, burst, dropped⟩ := counts
  have lif := kept.errors ⟨early, claim, burst⟩
  exact ⟨stc.cause, stc.start, stc.inRange, stc.learn, stc.learning, stc.rounds, stc.errors, lif.markerEarly,
    lif.claimCheck, lif.burstCheck, kept.dropped dropped⟩

/-- Settles O58: every event of a channel keeps the law of its ring. -/
theorem ringLawIsKept : Obligations.RingLawIsKept := by
  rintro s t ⟨talk, listen⟩ h
  have kept := step_keeps h
  exact ⟨fun k => (kept.talk k).law (talk k), fun k => (kept.listen k).law (listen k)⟩

/-- Settles O59: every event of a channel keeps its staging or its deposit within the room. -/
theorem depositsStayWithinTheirRoom : Obligations.DepositsStayWithinTheirRoom := by
  intro s t h
  have kept := step_keeps h
  exact ⟨fun deposits k => (kept.listen k).room (deposits k), fun staging k => (kept.talk k).room (staging k)⟩

/-- Settles O49: every operation of an event that is not the host's keeps the host's side. -/
theorem eventsKeepTheHostSide : Obligations.EventsKeepTheHostSide := by
  intro i s t other h
  exact (exec_acts other h).host

end Sys2Proof.Machine

/-! What an event at one talk channel does to its binding: only a binding, an unbinding, a lost slot and the end of the
link change it, and no event brings a bound channel to CLOSED (R110, R115 to R117, R120). -/

namespace Sys2Proof.Machine

/-! ## Events that leave the binding alone -/

/-- The binding stays, and a channel that was not CLOSED is not CLOSED after it. -/
def Talk.StaysBound (t u : Talk) : Prop := u.bound = t.bound ∧ (u.state = .closed → t.state = .closed)

theorem Talk.StaysBound.refl (t : Talk) : t.StaysBound t := ⟨rfl, id⟩

theorem Talk.StaysBound.trans {t u v : Talk} (h : t.StaysBound u) (g : u.StaysBound v) : t.StaysBound v :=
  ⟨g.1.trans h.1, h.2 ∘ g.2⟩

/-- One event after another. -/
theorem Talk.StaysBound.andThen {t : Talk} {o : Out Talk} {f : Talk → Out Talk} (h : t.StaysBound o.chan)
    (g : ∀ u : Talk, u.StaysBound (f u).chan) : t.StaysBound (o.andThen f).chan := h.trans (g _)

/-- An event that happens only under a condition. -/
theorem Talk.StaysBound.ite {p : Prop} [Decidable p] {t : Talk} {o : Out Talk} (h : p → t.StaysBound o.chan) :
    t.StaysBound (if p then o else Out.only t).chan := by
  split
  · exact h ‹_›
  · exact .refl t

/-- Every event at the channel that keeps the state open keeps it from CLOSED. -/
theorem Talk.StaysBound.of_open {t u : Talk} (bound : u.bound = t.bound) (isOpen : u.state ≠ .closed) : t.StaysBound u :=
  ⟨bound, fun closed => absurd closed isOpen⟩

theorem Talk.StaysBound.of_same {t u : Talk} (bound : u.bound = t.bound) (state : u.state = t.state) : t.StaysBound u :=
  ⟨bound, fun closed => state ▸ closed⟩

section
variable (ctx : ChannelContext) (t : Talk)

theorem Talk.judged_eq_closed : t.judged = .closed ↔ t.state = .closed := by
  unfold Talk.judged
  split
  case h_1 closed => simp [closed]
  case h_2 halted => simp [halted]
  all_goals
    rename_i state
    simp only [state, reduceCtorEq, iff_false]
    split
    · simp
    · split <;> simp

theorem Talk.rejudge_staysBound : t.StaysBound (t.rejudge ctx).chan := by
  rw [Talk.rejudge_chan]
  exact ⟨rfl, t.judged_eq_closed.mp⟩

theorem Talk.pump_staysBound : t.StaysBound (t.pump ctx).chan := .of_same (t.pump_bound ctx) (t.pump_state ctx)

theorem Talk.enterHalted_staysBound (reason : HaltReason) : t.StaysBound (t.enterHalted ctx reason).chan :=
  .of_open rfl nofun

theorem Talk.halt_staysBound (reason : HaltReason) : t.StaysBound (t.halt ctx reason).chan := by
  unfold Talk.halt
  split
  · exact .of_same rfl rfl
  · exact t.enterHalted_staysBound ctx reason

theorem Talk.takeHeldHalt_staysBound : t.StaysBound (t.takeHeldHalt ctx).chan := by
  unfold Talk.takeHeldHalt
  split
  · exact .refl t
  · split
    · exact .of_same rfl rfl
    · exact t.enterHalted_staysBound ctx _

theorem Talk.complete_staysBound (d : Descriptor) (rest : Nat) : t.StaysBound (t.complete ctx d rest).chan := by
  unfold Talk.complete
  dsimp only
  split
  · exact .trans (.of_same rfl rfl) (Talk.halt_staysBound ctx _ _)
  · exact .of_same rfl rfl

theorem Talk.completions_staysBound (fuel : Nat) : t.StaysBound (t.completions ctx fuel).chan := by
  induction fuel generalizing t with
  | zero => exact .refl t
  | succ fuel ih =>
    unfold Talk.completions
    split
    · exact .ite fun _ => (t.complete_staysBound ctx _ _).andThen ih
    · exact .refl t

theorem Talk.sent_staysBound : t.StaysBound (t.sent ctx).chan := by
  unfold Talk.sent
  split
  · exact .refl t
  · refine .andThen (.andThen (.andThen (.trans (.of_same rfl rfl) (Talk.completions_staysBound ctx _ _))
      fun u => u.rejudge_staysBound ctx) fun u => u.pump_staysBound ctx) fun u => u.takeHeldHalt_staysBound ctx

theorem Talk.cutOff_staysBound : t.StaysBound (t.cutOff ctx).chan := by
  unfold Talk.cutOff
  split
  · exact .refl t
  · exact .trans (.of_same rfl rfl) (Talk.takeHeldHalt_staysBound ctx _)

theorem Talk.resumed_staysBound : t.StaysBound (t.resumed ctx).chan := by
  unfold Talk.resumed
  dsimp only
  split
  · have left : t.StaysBound { t with state := .armed, haltCause := none, resumeWaits := false } :=
      .of_open rfl nofun
    exact .andThen (left.trans (Talk.rejudge_staysBound ctx _)) fun u => u.pump_staysBound ctx
  · exact .of_same rfl rfl

theorem Talk.fill_staysBound (fi : RingIndex) : t.StaysBound (t.fill ctx fi).chan := by
  unfold Talk.fill
  split
  · exact .refl t
  · have refilled : t.StaysBound { t with ring := { t.ring with fi } } := .of_same rfl rfl
    exact .andThen (refilled.trans (Talk.rejudge_staysBound ctx _)) fun u => u.pump_staysBound ctx

theorem Talk.fetched_staysBound (index : RingIndex) (d : Descriptor) : t.StaysBound (t.fetched ctx index d).chan := by
  unfold Talk.fetched
  split
  · split
    · exact .of_same rfl rfl
    · exact .trans (.of_same rfl rfl) (Talk.halt_staysBound ctx _ _)
  · split <;> exact .of_same rfl rfl

theorem Talk.fetchFailed_staysBound (index : RingIndex) : t.StaysBound (t.fetchFailed ctx index).chan := by
  unfold Talk.fetchFailed
  split
  · exact .trans (.of_same rfl rfl) (Talk.halt_staysBound ctx _ _)
  · exact .of_same rfl rfl

theorem Talk.readFailed_staysBound (index : RingIndex) : t.StaysBound (t.readFailed ctx index).chan := by
  unfold Talk.readFailed
  dsimp only
  split
  · exact .trans (.of_same rfl rfl) (Talk.halt_staysBound ctx _ _)
  · split <;> exact .of_same rfl rfl

theorem Talk.writebackFailed_staysBound (index : RingIndex) : t.StaysBound (t.writebackFailed ctx index).chan := by
  unfold Talk.writebackFailed
  dsimp only
  split
  · exact .refl t
  · exact Talk.halt_staysBound ctx _ _

theorem Talk.judgeResponse_staysBound (e : RequestEntry) (words : Option (List Word)) :
    t.StaysBound (t.judgeResponse ctx e words).chan := by
  unfold Talk.judgeResponse
  split
  · exact t.fetched_staysBound ctx _ _
  · exact t.fetchFailed_staysBound ctx _
  · exact .of_same rfl rfl
  · exact t.readFailed_staysBound ctx _
  · split <;> exact .refl t
  · exact t.writebackFailed_staysBound ctx _
  · exact .refl t

theorem Talk.response_staysBound (words : Option (List Word)) : t.StaysBound (t.response ctx words).chan := by
  unfold Talk.response
  split
  · exact .refl t
  · refine .andThen (.andThen (.trans (u := { t with requests := _ }) (.of_same rfl rfl) ?_)
      fun u => u.rejudge_staysBound ctx) fun u => u.pump_staysBound ctx
    split
    · exact .refl _
    · exact Talk.judgeResponse_staysBound ctx _ _ _

/-! ## Events that unbind -/

@[simp] theorem Talk.closeComplete_bound : (t.closeComplete ctx).chan.bound = none := rfl
@[simp] theorem Talk.unbind_bound : t.unbind.bound = none := rfl

@[simp] theorem Talk.loseSlot_bound : (t.loseSlot ctx).chan.bound = none := by
  unfold Talk.loseSlot
  split
  · rw [Talk.pump_bound]
    rfl
  · rfl

@[simp] theorem Talk.leaveLink_bound : (t.leaveLink ctx).chan.bound = none := by
  unfold Talk.leaveLink
  dsimp only
  generalize (t.cutOff ctx) = cut
  have lost : (cut.andThen fun t => if t.bound.isSome then t.loseSlot ctx else Out.only t).chan.bound = none := by
    rw [Out.andThen_chan]
    split
    · exact Talk.loseSlot_bound ctx _
    · simpa using ‹¬cut.chan.bound.isSome = true›
  rw [Out.andThen_chan]
  split
  · rfl
  · rw [Out.only_chan, Out.andThen_chan]
    split
    · rw [(Talk.resumed_staysBound ctx _).1, lost]
    · exact lost

/-- The end of a ring's use leaves no binding where there was none (R120). -/
theorem Talk.boundary_bound : (t.boundary ctx).chan.bound = t.bound := by
  unfold Talk.boundary
  rw [Out.andThen_chan]
  generalize resumed : (if t.resumeWaits then t.resumed ctx else Out.only t).chan = u
  have same : u.bound = t.bound := by
    rw [← resumed]
    split
    · exact (t.resumed_staysBound ctx).1
    · rfl
  split
  case isTrue closes =>
    rw [← same, Talk.closeComplete_bound]
    simp only [Bool.and_eq_true, Option.isNone_iff_eq_none] at closes
    exact closes.2.symm
  · exact same

/-- TKE's boundary work brings only an unbound channel to CLOSED (R120). -/
theorem Talk.boundary_closed (closed : (t.boundary ctx).chan.state = .closed) : t.state = .closed ∨ t.bound = none := by
  unfold Talk.boundary at closed
  rw [Out.andThen_chan] at closed
  generalize resumed : (if t.resumeWaits then t.resumed ctx else Out.only t).chan = u at closed
  have stays : t.StaysBound u := by
    rw [← resumed]
    exact .ite fun _ => t.resumed_staysBound ctx
  split at closed
  case isTrue closes =>
    simp only [Bool.and_eq_true, Option.isNone_iff_eq_none] at closes
    exact .inr (stays.1.symm.trans closes.2)
  · exact .inl (stays.2 closed)

theorem Talk.bind_bound (slot : Slot) : (t.bind ctx slot).chan.bound = some slot :=
  (Talk.rejudge_staysBound ctx _).1

theorem Talk.opened_bound (p : OpenParams) : (t.opened ctx p).chan.bound = none := Talk.pump_bound ctx _

end

end Sys2Proof.Machine

/-! The correspondence of the map and the bindings (R42): which operations leave what it speaks of alone, and how the
six steps at a slot keep it. -/

namespace Sys2Proof.Machine

/-! ## Operations that leave the correspondence alone -/

/-- The link, the bindings, the ownership of entries and slots stay; no slot is newly observed as sent, no burst is newly
sent, no element newly opened, and no boundary work newly waits. -/
structure State.Alike (s t : State) : Prop where
  link : t.inLink = s.inLink
  bound : ∀ k : TalkId, t.talk[k].bound = s.talk[k].bound
  closed : ∀ k : TalkId, t.talk[k].state = .closed → s.talk[k].state = .closed ∨ s.talk[k].bound = none
  own : ∀ i : Slot, t.smap.entries[i].isOwn = s.smap.entries[i].isOwn
  sent : ∀ (i : Slot) (o : Observation), t.smap.observations[i] = some o → o.isSent = true →
    s.smap.observations[i] = some o
  sending : ∀ (i : Slot) (b : Burst), t.lif.activity = .sending i b → s.lif.activity = .sending i b
  opened : 1 ≤ t.lif.opened → 1 ≤ s.lif.opened
  slotMap : t.boundary.slotMap = true → s.boundary.slotMap = true
  nothing : s.boundary = .nothing → t.boundary = .nothing

theorem State.Alike.agree {s t : State} (h : s.Alike t) (agree : s.bindingsAgree) : t.bindingsAgree := by
  obtain ⟨own, one, off, closed, sent, sending, opened, nothing⟩ := agree
  have slotMap : s.boundary.slotMap = false → t.boundary.slotMap = false := fun done => by
    simpa [done] using h.slotMap
  refine ⟨fun link i => ?_, fun j k i => ?_, fun link k => ?_, fun k isClosed => ?_, fun link i o seen isSent => ?_,
    fun i b activity => ?_, fun isOpen => slotMap (opened (h.opened isOpen)), fun link => h.nothing (nothing ?_)⟩
  · rw [h.own, own (h.link ▸ link)]
    simp only [h.bound]
  · rw [h.bound, h.bound]
    exact one j k i
  · rw [h.bound]
    exact off (h.link ▸ link) k
  · rw [h.bound]
    exact (h.closed k isClosed).elim (closed k) id
  · rw [h.own]
    exact sent (h.link ▸ link) i o (h.sent i o seen isSent) isSent
  · obtain ⟨link, isOwn, done⟩ := sending i b (h.sending i b activity)
    exact ⟨h.link.trans link, (h.own i).trans isOwn, slotMap done⟩
  · exact h.link ▸ link

theorem State.Alike.of_eq {s t : State} (state : t.stc.state = s.stc.state) (talk : t.talk = s.talk)
    (smap : t.smap = s.smap) (lif : t.lif = s.lif) (boundary : t.boundary = s.boundary) : s.Alike t where
  link := by rw [State.inLink, state, State.inLink]
  bound _ := by rw [talk]
  closed _ h := by rw [talk] at h; exact .inl h
  own _ := by rw [smap]
  sent _ _ h _ := by rw [smap] at h; exact h
  sending _ _ h := by rw [lif] at h; exact h
  opened h := by rw [lif] at h; exact h
  slotMap h := by rw [boundary] at h; exact h
  nothing h := by rw [boundary]; exact h

theorem State.Alike.refl (s : State) : s.Alike s := .of_eq rfl rfl rfl rfl rfl

theorem State.Alike.trans {s t u : State} (h : s.Alike t) (g : t.Alike u) : s.Alike u where
  link := g.link.trans h.link
  bound k := (g.bound k).trans (h.bound k)
  closed k isClosed := by
    rcases g.closed k isClosed with before | unbound
    · exact h.closed k before
    · exact .inr ((h.bound k).symm.trans unbound)
  own i := (g.own i).trans (h.own i)
  sent i o seen isSent := h.sent i o (g.sent i o seen isSent) isSent
  sending i b activity := h.sending i b (g.sending i b activity)
  opened isOpen := h.opened (g.opened isOpen)
  slotMap waits := h.slotMap (g.slotMap waits)
  nothing none := g.nothing (h.nothing none)

theorem State.Alike.after {s t u : State} (g : t.Alike u) (h : s.Alike t) : s.Alike u := h.trans g

theorem State.Alike.ite {p : Prop} [Decidable p] {s t : State} (h : p → s.Alike t) :
    s.Alike (if p then t else s) := by
  split
  · exact h ‹_›
  · exact .refl s

theorem State.Alike.foldl {α : Type} {f : State → α → State} (h : ∀ (t : State) (x : α), t.Alike (f t x)) (s : State) (xs : List α) :
    s.Alike (xs.foldl f s) := by
  induction xs generalizing s with
  | nil => exact .refl s
  | cons x xs ih => exact (h s x).trans (ih _)

section
variable (s : State)

theorem State.alike_setStc {v : Stc} (state : v.state = s.stc.state) : s.Alike (s.setStc v) :=
  .of_eq state rfl rfl rfl rfl
theorem State.alike_setRtm (v : Rtm) : s.Alike (s.setRtm v) := .of_eq rfl rfl rfl rfl rfl
theorem State.alike_reach (time : Nat) : s.Alike (s.reach time) := .of_eq rfl rfl rfl rfl rfl
theorem State.alike_setCle (v : Cle) : s.Alike (s.setCle v) := .of_eq rfl rfl rfl rfl rfl
theorem State.alike_setMpt (v : Mpt) : s.Alike (s.setMpt v) := .of_eq rfl rfl rfl rfl rfl
theorem State.alike_setHpt (v : Hpt) : s.Alike (s.setHpt v) := .of_eq rfl rfl rfl rfl rfl
theorem State.alike_setEvq (v : Evq) : s.Alike (s.setEvq v) := .of_eq rfl rfl rfl rfl rfl
theorem State.alike_setRstHeld (v : Bool) : s.Alike (s.setRstHeld v) := .of_eq rfl rfl rfl rfl rfl
theorem State.alike_withPending (v : List Instr) : s.Alike (s.withPending v) := .of_eq rfl rfl rfl rfl rfl
theorem State.alike_setListen (k : ListenId) (v : Listen) : s.Alike (s.setListen k v) := .of_eq rfl rfl rfl rfl rfl
theorem State.alike_answer (result : ResultCode) (code : BitVec 8) : s.Alike (s.answer result code) :=
  s.alike_setHpt _
theorem State.alike_post (r : EventRecord) : s.Alike (s.post r) := .of_eq (by simp) (by simp) (by simp) (by simp) (by simp)
theorem State.alike_postAll (rs : List EventRecord) : s.Alike (s.postAll rs) :=
  .of_eq (by simp) (by simp) (by simp) (by simp) (by simp)
theorem State.alike_applyListen (k : ListenId) (f : ChannelContext → Listen → Out Listen) : s.Alike (s.applyListen k f) :=
  .of_eq (by simp) (by simp) (by simp) (by simp) (by simp)
theorem State.alike_eachListen (f : ChannelContext → Listen → Out Listen) : s.Alike (s.eachListen f) :=
  .foldl (fun t k => t.alike_applyListen k f) s _

variable {s}

/-- LIF ends what it does, or begins anything but a burst. -/
theorem State.alike_setLif {v : Lif} (sending : ∀ i b, v.activity ≠ .sending i b)
    (opened : 1 ≤ v.opened → 1 ≤ s.lif.opened) : s.Alike (s.setLif v) :=
  { State.Alike.refl s with sending := fun i b h => absurd h (sending i b), opened := opened }

theorem State.alike_setLif_same {v : Lif} (activity : v.activity = s.lif.activity) (opened : v.opened = s.lif.opened) :
    s.Alike (s.setLif v) :=
  { State.Alike.refl s with
    sending := fun _ _ h => activity.symm.trans h, opened := fun h => (opened ▸ h : 1 ≤ s.lif.opened) }

theorem State.alike_setBoundary {v : BoundaryWork} (slotMap : v.slotMap = true → s.boundary.slotMap = true)
    (nothing : s.boundary = .nothing → v = .nothing) : s.Alike (s.setBoundary v) :=
  { State.Alike.refl s with slotMap := slotMap, nothing := nothing }

theorem State.alike_setSmap {v : Smap} (own : ∀ i : Slot, v.entries[i].isOwn = s.smap.entries[i].isOwn)
    (sent : ∀ (i : Slot) (o : Observation), v.observations[i] = some o → o.isSent = true →
      s.smap.observations[i] = some o) : s.Alike (s.setSmap v) :=
  { State.Alike.refl s with own := own, sent := sent }

/-- A talk channel changes, but not its binding. -/
theorem State.alike_setTalk {k : TalkId} {v : Talk} (bound : v.bound = s.talk[k].bound)
    (closed : v.state = .closed → s.talk[k].state = .closed ∨ s.talk[k].bound = none) : s.Alike (s.setTalk k v) := by
  have same : ∀ j : TalkId, (s.setTalk k v).talk[j] = if k = j then v else s.talk[j] := fun j => by
    simp [Vector.getElem_set, Fin.ext_iff]
  refine { State.Alike.refl s with bound := fun j => ?_, closed := fun j isClosed => ?_ }
  · rw [same]
    split
    · subst j; exact bound
    · rfl
  · rw [same] at isClosed
    split at isClosed
    · subst j; exact closed isClosed
    · exact .inl isClosed

theorem State.alike_applyTalk {k : TalkId} {f : ChannelContext → Talk → Out Talk}
    (bound : (f (s.talkContext k) s.talk[k]).chan.bound = s.talk[k].bound)
    (closed : (f (s.talkContext k) s.talk[k]).chan.state = .closed →
      s.talk[k].state = .closed ∨ s.talk[k].bound = none) : s.Alike (s.applyTalk k f) :=
  (State.alike_setTalk bound closed).trans (.of_eq (by simp) (by simp) (by simp) (by simp) (by simp))

theorem State.alike_applyTalk_stays {k : TalkId} {f : ChannelContext → Talk → Out Talk}
    (h : s.talk[k].StaysBound (f (s.talkContext k) s.talk[k]).chan) : s.Alike (s.applyTalk k f) :=
  State.alike_applyTalk h.1 fun closed => .inl (h.2 closed)

theorem State.alike_observe {slot : Slot} {o : Observation} (o_unsent : o.isSent = false) : s.Alike (s.observe slot o) := by
  refine State.alike_setSmap (fun _ => rfl) fun i p seen isSent => ?_
  simp only [Fin.getElem_fin, Vector.getElem_set] at seen
  split at seen
  · cases seen
    simp [o_unsent] at isSent
  · exact seen

end

/-! ## Off the link -/

/-- Off the link nothing is bound, sent or waits. -/
theorem State.bindingsAgree_of_offLink {s : State} (off : s.inLink = false) (unbound : ∀ k : TalkId, s.talk[k].bound = none)
    (idle : ∀ i b, s.lif.activity ≠ .sending i b) (nothing : s.boundary = .nothing) : s.bindingsAgree :=
  ⟨fun link => by simp [off] at link, fun j _ _ bound => absurd bound (by rw [unbound]; nofun), fun _ => unbound,
    fun k _ => unbound k, fun link => by simp [off] at link, fun i b sending => absurd sending (idle i b),
    fun _ => by rw [nothing]; rfl, fun _ => nothing⟩

theorem State.reset_talk (k : TalkId) : State.reset.talk[k] = .clear := by simp [State.reset]
theorem State.reset_listen (k : ListenId) : State.reset.listen[k] = .clear := by simp [State.reset]

/-- Every reset unbinds the channels and stops the line. -/
theorem State.bindingsAgree_of_reset {stc : Stc} {lif : Lif} {mpt : Mpt} {hpt : Hpt} {evq : Evq} {held : Bool}
    {pending : List Instr} (off : stc.state.inLink = false) (idle : lif.activity = .idle) :
    State.bindingsAgree { State.reset with stc, lif, mpt, hpt, evq, rstHeld := held, pending } :=
  State.bindingsAgree_of_offLink off (fun k => by rw [State.reset_talk k]; rfl) (fun i b => by simp [idle]) rfl

/-! ## The slots of the map -/

/-- An entry is OWNED by the station itself exactly where a channel is bound to its slot; no two are bound to one, and no
CLOSED channel is bound (R42, R120). -/
structure State.SlotsAgree (s : State) : Prop where
  own : ∀ i : Slot, s.smap.entries[i].isOwn = true ↔ ∃ k : TalkId, s.talk[k].bound = some i
  one : ∀ (j k : TalkId) (i : Slot), s.talk[j].bound = some i → s.talk[k].bound = some i → j = k
  closed : ∀ k : TalkId, s.talk[k].state = .closed → s.talk[k].bound = none

theorem State.SlotsAgree.congr {s t : State} (h : s.SlotsAgree)
    (own : ∀ i : Slot, t.smap.entries[i].isOwn = s.smap.entries[i].isOwn) (talk : t.talk = s.talk) : t.SlotsAgree :=
  ⟨fun i => by rw [own, talk]; exact h.own i, by rw [talk]; exact h.one, by rw [talk]; exact h.closed⟩

theorem State.setEntry_get (s : State) (slot i : Slot) (e : Entry) :
    (s.setEntry slot e).smap.entries[i] = if slot = i then e else s.smap.entries[i] := by
  simp [State.setEntry, Vector.getElem_set, Fin.ext_iff]

/-- An entry changes, but not whether the station owns it. -/
theorem State.SlotsAgree.setEntry {s : State} (h : s.SlotsAgree) {slot : Slot} {e : Entry}
    (own : e.isOwn = s.smap.entries[slot].isOwn) : (s.setEntry slot e).SlotsAgree := by
  refine h.congr (fun i => ?_) rfl
  rw [State.setEntry_get]
  split
  · subst i; exact own
  · rfl

/-- The station gives the slot up: its entry is another's and the channel bound to it is unbound. -/
theorem State.SlotsAgree.frees {s t : State} (h : s.SlotsAgree) {slot : Slot}
    (own : ∀ i : Slot, t.smap.entries[i].isOwn = if slot = i then false else s.smap.entries[i].isOwn)
    (bound : ∀ k : TalkId, t.talk[k].bound = if s.talk[k].bound = some slot then none else s.talk[k].bound)
    (closed : ∀ k : TalkId, t.talk[k].state = .closed → s.talk[k].state = .closed ∨ t.talk[k].bound = none) :
    t.SlotsAgree := by
  have still : ∀ (k : TalkId) (i : Slot), t.talk[k].bound = some i ↔ s.talk[k].bound = some i ∧ slot ≠ i := fun k i => by
    rw [bound]
    split
    case isTrue atSlot => simp [-Fin.getElem_fin, atSlot]
    case isFalse other =>
      refine ⟨fun same => ⟨same, ?_⟩, And.left⟩
      rintro rfl
      exact other same
  refine ⟨fun i => ?_, fun j k i hj hk => ?_, fun k isClosed => ?_⟩
  · simp only [own, still]
    split
    case isTrue same => simp [same]
    case isFalse other => simp [-Fin.getElem_fin, h.own i, other]
  · exact h.one j k i ((still j i).mp hj).1 ((still k i).mp hk).1
  · rcases closed k isClosed with before | unbound
    · rw [bound, h.closed k before, ite_self]
    · exact unbound

/-- The station takes a slot for an unbound channel (R57, R110). -/
theorem State.SlotsAgree.binds {s t : State} (h : s.SlotsAgree) {slot : Slot} {k : TalkId}
    (foreign : s.smap.entries[slot].isOwn = false) (unbound : s.talk[k].bound = none)
    (own : ∀ i : Slot, t.smap.entries[i].isOwn = if slot = i then true else s.smap.entries[i].isOwn)
    (bound : ∀ j : TalkId, t.talk[j].bound = if k = j then some slot else s.talk[j].bound)
    (closed : ∀ j : TalkId, t.talk[j].state = .closed → k ≠ j ∧ s.talk[j].state = .closed) : t.SlotsAgree := by
  have vacant : ∀ j : TalkId, s.talk[j].bound ≠ some slot := fun j atSlot => by
    rw [(h.own slot).mpr ⟨j, atSlot⟩] at foreign
    cases foreign
  have now : ∀ (j : TalkId) (i : Slot), t.talk[j].bound = some i ↔ (k = j ∧ slot = i) ∨ s.talk[j].bound = some i :=
    fun j i => by
      rw [bound]
      split
      case isTrue same => subst j; simp [-Fin.getElem_fin, unbound]
      case isFalse other => simp [other]
  refine ⟨fun i => ?_, fun i j x hi hj => ?_, fun j isClosed => ?_⟩
  · simp only [own, now]
    split
    case isTrue same => simp [same]
    case isFalse other => simp [-Fin.getElem_fin, h.own i, other]
  · rcases (now i x).mp hi with ⟨rfl, rfl⟩ | hi
    · exact ((now j _).mp hj).elim And.left fun atSlot => absurd atSlot (vacant j)
    · rcases (now j x).mp hj with ⟨rfl, rfl⟩ | hj
      · exact absurd hi (vacant i)
      · exact h.one i j x hi hj
  · obtain ⟨other, before⟩ := closed j isClosed
    rw [bound, if_neg other]
    exact h.closed j before

/-! ## What the steps at a slot leave alone (R47) -/

/-- Only the entries of some slots, the talk channels with their requests, and the event queue change. -/
structure State.WorksOn (p : Slot → Prop) (s t : State) : Prop where
  smap : t.smap = { s.smap with entries := t.smap.entries }
  others : ∀ i : Slot, ¬ p i → t.smap.entries[i] = s.smap.entries[i]
  stc : t.stc = s.stc
  rtm : t.rtm = s.rtm
  lif : t.lif = s.lif
  cle : t.cle = s.cle
  listen : t.listen = s.listen
  boundary : t.boundary = s.boundary
  mailbox : t.hpt.mailbox = s.hpt.mailbox
  rstHeld : t.rstHeld = s.rstHeld
  pending : t.pending = s.pending

theorem State.WorksOn.refl (p : Slot → Prop) (s : State) : s.WorksOn p s :=
  ⟨rfl, fun _ _ => rfl, rfl, rfl, rfl, rfl, rfl, rfl, rfl, rfl, rfl⟩

theorem State.WorksOn.trans {p : Slot → Prop} {s t u : State} (h : s.WorksOn p t) (g : t.WorksOn p u) : s.WorksOn p u :=
  ⟨by rw [g.smap, h.smap], fun i hi => (g.others i hi).trans (h.others i hi), g.stc.trans h.stc, g.rtm.trans h.rtm,
    g.lif.trans h.lif, g.cle.trans h.cle, g.listen.trans h.listen, g.boundary.trans h.boundary,
    g.mailbox.trans h.mailbox, g.rstHeld.trans h.rstHeld, g.pending.trans h.pending⟩

theorem State.WorksOn.mono {p q : Slot → Prop} {s t : State} (h : s.WorksOn p t) (sub : ∀ i, p i → q i) : s.WorksOn q t :=
  { h with others := fun i hi => h.others i fun hp => hi (sub i hp) }

theorem State.WorksOn.observations {p : Slot → Prop} {s t : State} (h : s.WorksOn p t) :
    t.smap.observations = s.smap.observations := by rw [h.smap]

theorem State.WorksOn.message {p : Slot → Prop} {s t : State} (h : s.WorksOn p t) : t.smap.message = s.smap.message := by
  rw [h.smap]

theorem State.WorksOn.part {p : Slot → Prop} {s t : State} (h : s.WorksOn p t) : t.smap.part = s.smap.part := by
  rw [h.smap]

theorem State.WorksOn.abandon {p : Slot → Prop} {s t : State} (h : s.WorksOn p t) : t.smap.abandon = s.smap.abandon := by
  rw [h.smap]

theorem State.WorksOn.selfId {p : Slot → Prop} {s t : State} (h : s.WorksOn p t) : t.selfId = s.selfId := by
  rw [State.selfId, h.stc, State.selfId]

theorem State.WorksOn.evidence {p : Slot → Prop} {s t : State} (h : s.WorksOn p t) (slot : Slot) :
    t.evidence slot = s.evidence slot := by
  rw [State.evidence, h.observations, h.selfId, State.evidence]

section
variable (s : State) (slot : Slot)

theorem State.worksOn_setEntry (e : Entry) : s.WorksOn (· = slot) (s.setEntry slot e) :=
  { State.WorksOn.refl (· = slot) s with
    smap := rfl
    others := fun i hi => by rw [State.setEntry_get, if_neg (Ne.symm hi)] }

theorem State.worksOn_post {p : Slot → Prop} (r : EventRecord) : s.WorksOn p (s.post r) :=
  ⟨by simp, fun _ _ => by simp, by simp, by simp, by simp, by simp, by simp, by simp, by simp, by simp, by simp⟩

/-- An event at a talk channel that asks for no RELEASE and completes no command. -/
theorem State.worksOn_applyTalk {p : Slot → Prop} {k : TalkId} {f : ChannelContext → Talk → Out Talk}
    (release : (f (s.talkContext k) s.talk[k]).release = false) (done : (f (s.talkContext k) s.talk[k]).done = false) :
    s.WorksOn p (s.applyTalk k f) :=
  ⟨by simp, fun _ _ => by simp, by simp, by simp, by simp, State.applyTalk_cle release, by simp, by simp,
    by rw [State.applyTalk_mailbox, if_neg (fun h => by rw [done] at h; cases h)], by simp, by simp⟩

theorem Talk.loseSlot_release (ctx : ChannelContext) (t : Talk) : (t.loseSlot ctx).release = false := by
  unfold Talk.loseSlot; split <;> simp

theorem Talk.loseSlot_done (ctx : ChannelContext) (t : Talk) : (t.loseSlot ctx).done = false := by
  unfold Talk.loseSlot; split <;> simp

theorem State.worksOn_slotLost {p : Slot → Prop} (cause : LossCause) (station : Option StationId) :
    s.WorksOn p (s.slotLost slot cause station) := by
  unfold State.slotLost
  split
  · exact (s.worksOn_post _).trans
      (State.worksOn_applyTalk _ (Talk.loseSlot_release _ _) (Talk.loseSlot_done _ _))
  · exact s.worksOn_post _

theorem State.worksOn_slotUnbound {p : Slot → Prop} : s.WorksOn p (s.slotUnbound slot) := by
  unfold State.slotUnbound
  split
  · exact s.worksOn_applyTalk rfl rfl
  · exact .refl _ s

theorem State.worksOn_evidenceStep : s.WorksOn (· = slot) (s.evidenceStep slot) := by
  unfold State.evidenceStep
  split
  · exact .refl _ s
  · split
    · exact s.worksOn_setEntry slot _
    · exact s.worksOn_setEntry slot _
    · split
      · exact s.worksOn_setEntry slot _
      · split <;> exact s.worksOn_setEntry slot _
    · split
      · exact s.worksOn_setEntry slot _
      · split
        · exact (s.worksOn_setEntry slot _).trans (State.worksOn_slotLost _ slot _ _)
        · exact s.worksOn_setEntry slot _

theorem State.worksOn_silenceStep : s.WorksOn (· = slot) (s.silenceStep slot) := by
  unfold State.silenceStep
  split
  · exact s.worksOn_setEntry slot _
  · exact .refl _ s

theorem State.worksOn_ownStep : s.WorksOn (· = slot) (s.ownStep slot) := by
  unfold State.ownStep
  split
  · dsimp only
    split
    · exact s.worksOn_setEntry slot _
    · exact s.worksOn_setEntry slot _
    · split
      · exact s.worksOn_setEntry slot _
      · exact (s.worksOn_setEntry slot _).trans (State.worksOn_slotLost _ slot _ _)
  all_goals exact .refl _ s

theorem State.worksOn_offerBinding (tag : Tag) : s.WorksOn (· = slot) (s.offerBinding slot tag) := by
  unfold State.offerBinding
  split
  · exact .refl _ s
  · split
    · exact (s.worksOn_setEntry slot _).trans
        (State.worksOn_applyTalk _ (Talk.rejudge_release _ _) (Talk.rejudge_done _ _))
    · exact s.worksOn_setEntry slot _

theorem State.worksOn_claimStep : s.WorksOn (· = slot) (s.claimStep slot) := by
  unfold State.claimStep
  split
  · exact .refl _ s
  · split
    · exact .refl _ s
    · split
      · exact .refl _ s
      · split
        · split
          · exact .refl _ s
          · split
            · exact s.worksOn_offerBinding slot _
            · exact s.worksOn_setEntry slot _
        · split
          · exact s.worksOn_setEntry slot _
          · exact .refl _ s
        · split
          · exact (s.worksOn_setEntry slot _).trans (State.worksOn_slotUnbound _ slot)
          · exact .refl _ s
        · exact .refl _ s

theorem State.worksOn_abandonStep : s.WorksOn (· = slot) (s.abandonStep slot) := by
  unfold State.abandonStep
  split
  · split
    · exact (s.worksOn_setEntry slot _).trans (State.worksOn_slotUnbound _ slot)
    all_goals exact .refl _ s
  · exact .refl _ s

theorem State.worksOn_countdownStep (before : Entry) : s.WorksOn (· = slot) (s.countdownStep slot before) := by
  unfold State.countdownStep
  split
  · split
    · exact s.worksOn_setEntry slot _
    · exact .refl _ s
  all_goals exact .refl _ s

theorem State.worksOn_slotStep : s.WorksOn (· = slot) (s.slotStep slot) :=
  (s.worksOn_evidenceStep slot).trans <| (State.worksOn_silenceStep _ slot).trans <|
    (State.worksOn_ownStep _ slot).trans <| (State.worksOn_claimStep _ slot).trans <|
    (State.worksOn_abandonStep _ slot).trans <| State.worksOn_countdownStep _ slot _

theorem State.worksOn_foldl_slotStep (slots : List Slot) : s.WorksOn (· ∈ slots) (slots.foldl State.slotStep s) := by
  induction slots generalizing s with
  | nil => exact .refl _ s
  | cons i slots ih =>
    exact ((s.worksOn_slotStep i).mono fun j same => by simp [same]).trans
      ((ih _).mono fun j later => List.mem_cons_of_mem _ later)

end

/-! ## The steps keep the slots in agreement -/

section
variable {s : State} {slot : Slot}

theorem State.talkAt_some {k : TalkId} (h : s.talkAt slot = some k) : s.talk[k].bound = some slot := by
  simpa using List.find?_some h

theorem State.talkAt_none (h : s.talkAt slot = none) (k : TalkId) : s.talk[k].bound ≠ some slot := by
  simpa using List.find?_eq_none.mp h k (List.mem_finRange k)

theorem Talk.unbind_closed {t : Talk} (closed : t.unbind.state = .closed) : t.state = .closed := by
  unfold Talk.unbind at closed
  dsimp only at closed
  split at closed
  · cases closed
  · exact closed

/-- The channel at the slot unbound by an event, and no other channel touched. -/
theorem State.talkAt_applied (h : s.SlotsAgree) {k : TalkId} (atSlot : s.talk[k].bound = some slot) {t : State} {v : Talk}
    (talk : t.talk = s.talk.set k v) (unbound : v.bound = none) (j : TalkId) :
    t.talk[j].bound = (if s.talk[j].bound = some slot then none else s.talk[j].bound) ∧
      (t.talk[j].state = .closed → s.talk[j].state = .closed ∨ t.talk[j].bound = none) := by
  have get : t.talk[j] = if k = j then v else s.talk[j] := by
    simp [talk, Vector.getElem_set, Fin.ext_iff]
  by_cases same : k = j
  · subst j
    rw [get, if_pos rfl, if_pos atSlot]
    exact ⟨unbound, fun _ => .inr unbound⟩
  · rw [get, if_neg same, if_neg fun other => same (h.one k j slot atSlot other)]
    exact ⟨rfl, .inl⟩

theorem State.frees_setEntry {e : Entry} (foreign : e.isOwn = false) (i : Slot) :
    (s.setEntry slot e).smap.entries[i].isOwn = if slot = i then false else s.smap.entries[i].isOwn := by
  rw [State.setEntry_get]
  split
  · exact foreign
  · rfl

theorem State.SlotsAgree.slotLost (h : s.SlotsAgree) {e : Entry} (foreign : e.isOwn = false) (cause : LossCause)
    (station : Option StationId) : ((s.setEntry slot e).slotLost slot cause station).SlotsAgree := by
  have own : ∀ i : Slot, ((s.setEntry slot e).slotLost slot cause station).smap.entries[i].isOwn =
      if slot = i then false else s.smap.entries[i].isOwn := fun i => by
    rw [(State.worksOn_slotLost (p := fun _ => False) _ slot cause station).others i id]
    exact State.frees_setEntry foreign i
  have all : ∀ j : TalkId, ((s.setEntry slot e).slotLost slot cause station).talk[j].bound =
        (if s.talk[j].bound = some slot then none else s.talk[j].bound) ∧
      (((s.setEntry slot e).slotLost slot cause station).talk[j].state = .closed →
        s.talk[j].state = .closed ∨ ((s.setEntry slot e).slotLost slot cause station).talk[j].bound = none) := fun j => by
    unfold State.slotLost
    split
    case h_1 k atSlot =>
      exact State.talkAt_applied h (State.talkAt_some (s := s) atSlot)
        ((State.applyTalk_talk _ _ _).trans (by rw [State.post_talk]; rfl)) (Talk.loseSlot_bound _ _) j
    case h_2 vacant =>
      rw [State.post_talk]
      exact ⟨(if_neg (State.talkAt_none (s := s) vacant j)).symm, .inl⟩
  exact h.frees own (fun j => (all j).1) fun j => (all j).2

theorem State.SlotsAgree.slotUnbound (h : s.SlotsAgree) {e : Entry} (foreign : e.isOwn = false) :
    ((s.setEntry slot e).slotUnbound slot).SlotsAgree := by
  have own : ∀ i : Slot, ((s.setEntry slot e).slotUnbound slot).smap.entries[i].isOwn =
      if slot = i then false else s.smap.entries[i].isOwn := fun i => by
    rw [(State.worksOn_slotUnbound (p := fun _ => False) _ slot).others i id]
    exact State.frees_setEntry foreign i
  have all : ∀ j : TalkId, ((s.setEntry slot e).slotUnbound slot).talk[j].bound =
        (if s.talk[j].bound = some slot then none else s.talk[j].bound) ∧
      (((s.setEntry slot e).slotUnbound slot).talk[j].state = .closed →
        s.talk[j].state = .closed ∨ ((s.setEntry slot e).slotUnbound slot).talk[j].bound = none) := fun j => by
    unfold State.slotUnbound
    split
    case h_1 k atSlot =>
      exact State.talkAt_applied h (State.talkAt_some (s := s) atSlot) (State.applyTalk_talk _ _ fun _ t => Out.only t.unbind) rfl j
    case h_2 vacant => exact ⟨(if_neg (State.talkAt_none (s := s) vacant j)).symm, .inl⟩
  exact h.frees own (fun j => (all j).1) fun j => (all j).2

end

end Sys2Proof.Machine

/-! Every command keeps the correspondence of the map and the bindings (R42). -/

namespace Sys2Proof.Machine

/-! ## The six steps (R47) -/

/-- In a slot the station sends in its entry is its own, and no burst received there carries its id (R48). -/
structure State.Seen (s : State) (slot : Slot) : Prop where
  sent : ∀ o : Observation, s.smap.observations[slot] = some o → o.isSent = true → s.smap.entries[slot].isOwn = true
  foreign : ∀ tag : Tag, s.smap.observations[slot] ≠ some (.valid s.selfId tag)

section
variable {s : State} {slot : Slot}

/-- A valid burst in a slot that is not the station's own is another station's. -/
theorem State.Seen.other (seen : s.Seen slot) {x : StationId} {t : Tag} (heard : s.evidence slot = some (x, t))
    (notOwn : s.smap.entries[slot].isOwn = false) : x ≠ s.selfId := by
  cases observed : s.smap.observations[slot] with
  | none => rw [State.evidence_of_unobserved observed] at heard; cases heard
  | some o =>
    have unsent : o.isSent ≠ true := fun isSent => by
      rw [seen.sent o observed isSent] at notOwn
      cases notOwn
    rw [State.evidence_of_observed observed] at heard
    cases o with
    | silent | bad => cases heard
    | valid owner tag =>
      cases heard
      rintro rfl
      exact seen.foreign t observed
    | sentMatch | sentMismatch => simp [Observation.isSent] at unsent

theorem Entry.silentRound_isOwn (owner : StationId) (tag : Tag) (silent : Nat) (rival : Option StationId) :
    (Entry.silentRound owner tag silent rival).isOwn = false := by
  unfold Entry.silentRound
  split <;> rfl

theorem State.SlotsAgree.evidenceStep (h : s.SlotsAgree) (seen : s.Seen slot) : (s.evidenceStep slot).SlotsAgree := by
  have taken : ∀ {x t}, s.evidence slot = some (x, t) → s.smap.entries[slot].isOwn = false →
      (Entry.ownedBy s.selfId x t).isOwn = false := fun heard notOwn => by
    rw [Entry.ownedBy_of_ne (seen.other heard notOwn)]
    rfl
  unfold State.evidenceStep
  split
  · exact h
  case h_2 x t heard =>
    split
    case h_1 entry => exact h.setEntry (by rw [taken heard (by rw [entry]; rfl), entry]; rfl)
    case h_2 entry => exact h.setEntry (by rw [taken heard (by rw [entry]; rfl), entry]; rfl)
    case h_3 entry =>
      split
      · exact h.setEntry (by rw [entry]; rfl)
      · split
        · exact h.setEntry (by rw [taken heard (by rw [entry]; rfl), entry]; rfl)
        · exact h.setEntry (by rw [Entry.silentRound_isOwn, entry]; rfl)
    case h_4 entry =>
      split
      · exact h.setEntry (by rw [entry]; rfl)
      · split
        · exact h.slotLost rfl _ _
        · exact h.setEntry (by rw [entry]; rfl)

theorem State.SlotsAgree.silenceStep (h : s.SlotsAgree) : (s.silenceStep slot).SlotsAgree := by
  unfold State.silenceStep
  split
  case h_1 entry => exact h.setEntry (by rw [Entry.silentRound_isOwn, entry]; rfl)
  · exact h

theorem State.SlotsAgree.ownStep (h : s.SlotsAgree) : (s.ownStep slot).SlotsAgree := by
  unfold State.ownStep
  split
  case h_1 entry =>
    dsimp only
    split
    · exact h.setEntry (by rw [entry]; rfl)
    · exact h.setEntry (by rw [entry]; rfl)
    · split
      · exact h.setEntry (by rw [entry]; rfl)
      · exact h.slotLost rfl _ _
  all_goals exact h

theorem Talk.bind_open {ctx : ChannelContext} {t : Talk} (takes : t.takesBinding = true) :
    (t.bind ctx slot).chan.state ≠ .closed := by
  rw [Talk.bind, Talk.rejudge_chan, ne_eq, Talk.judged_eq_closed]
  obtain ⟨-, -, armed | halted⟩ := t.takesBinding_iff.mp takes
  · rw [armed]; nofun
  · rw [halted]; nofun

/-- A binding is offered for a FREE slot, to an unbound channel (R57, R110). -/
theorem State.SlotsAgree.offerBinding (h : s.SlotsAgree) (free : s.smap.entries[slot] = .free) (tag : Tag) :
    (s.offerBinding slot tag).SlotsAgree := by
  unfold State.offerBinding
  split
  · exact h
  case h_2 k _ =>
    split
    case isTrue takes =>
      obtain ⟨-, unbound, -⟩ := s.talk[k].takesBinding_iff.mp takes
      have talk : ∀ j : TalkId, ((s.setEntry slot (.own tag none 0)).applyTalk k fun ctx => Talk.bind ctx slot).talk[j] =
          if k = j then (Talk.bind (s.talkContext k) slot s.talk[k]).chan else s.talk[j] := fun j => by
        rw [State.applyTalk_talk]
        simp only [Fin.getElem_fin, Vector.getElem_set, Fin.ext_iff]
        rfl
      refine h.binds (k := k) (by rw [free]; rfl) unbound (fun i => ?_) (fun j => ?_) fun j isClosed => ?_
      · rw [State.applyTalk_smap, State.setEntry_get]
        split <;> rfl
      · rw [talk]
        split
        · exact Talk.bind_bound _ _ _
        · rfl
      · rw [talk] at isClosed
        split at isClosed
        · exact absurd isClosed (Talk.bind_open takes)
        · exact ⟨‹_›, isClosed⟩
    case isFalse => exact h.setEntry (by rw [free]; rfl)

theorem State.SlotsAgree.claimStep (h : s.SlotsAgree) : (s.claimStep slot).SlotsAgree := by
  unfold State.claimStep
  split
  · exact h
  · split
    · exact h
    · split
      · exact h
      · split
        case h_1 free =>
          split
          · exact h
          · split
            · exact h.offerBinding free _
            · exact h.setEntry (by rw [free]; rfl)
        case h_2 entry =>
          split
          · exact h.setEntry (by rw [entry]; rfl)
          · exact h
        · split
          · exact h.slotUnbound rfl
          · exact h
        · exact h

theorem State.SlotsAgree.abandonStep (h : s.SlotsAgree) : (s.abandonStep slot).SlotsAgree := by
  unfold State.abandonStep
  split
  · split
    · exact h.slotUnbound rfl
    all_goals exact h
  · exact h

theorem State.SlotsAgree.countdownStep (h : s.SlotsAgree) (before : Entry) : (s.countdownStep slot before).SlotsAgree := by
  unfold State.countdownStep
  split
  case h_1 entry =>
    split
    · refine h.setEntry ?_
      rw [entry]
      split <;> rfl
    · exact h
  all_goals exact h

theorem State.SlotsAgree.slotStep (h : s.SlotsAgree) (seen : s.Seen slot) : (s.slotStep slot).SlotsAgree :=
  ((((h.evidenceStep seen).silenceStep.ownStep).claimStep).abandonStep).countdownStep _

theorem State.SlotsAgree.foldl_slotStep (h : s.SlotsAgree) {slots : List Slot} (distinct : slots.Nodup)
    (seen : ∀ i ∈ slots, s.Seen i) : (slots.foldl State.slotStep s).SlotsAgree := by
  induction slots generalizing s with
  | nil => exact h
  | cons i slots ih =>
    obtain ⟨new, distinct⟩ := List.nodup_cons.mp distinct
    have works := s.worksOn_slotStep i
    refine ih (h.slotStep (seen i (by simp))) distinct fun j later => ?_
    obtain ⟨sent, foreign⟩ := seen j (List.mem_cons_of_mem i later)
    have other : ¬ j = i := fun same => new (same ▸ later)
    exact ⟨by rw [works.observations, works.others j other]; exact sent,
      by rw [works.observations, works.selfId]; exact foreign⟩

end

/-! ## SMAP's boundary work (R47, R48) -/

section
variable {s : State}

theorem State.duplicateScan_none (h : s.duplicateScan = none) {slot : Slot} (used : slot.val < s.slots) (tag : Tag) :
    s.smap.observations[slot] ≠ some (.valid s.selfId tag) := by
  intro observed
  have nothing := List.findSome?_eq_none_iff.mp h slot (State.mem_usedSlots.mpr used)
  simp only [observed, if_true] at nothing
  cases nothing

theorem State.bindingsAgree.slotsAgree (h : s.bindingsAgree) (link : s.inLink = true) : s.SlotsAgree := by
  obtain ⟨own, one, -, closed, -⟩ := h
  exact ⟨own link, one, closed⟩

theorem State.bindingsAgree.inLink (h : s.bindingsAgree) (waits : s.boundary ≠ .nothing) : s.inLink = true := by
  obtain ⟨-, -, -, -, -, -, -, nothing⟩ := h
  cases link : s.inLink with
  | true => rfl
  | false => exact absurd (nothing link) waits

theorem State.bindingsAgree.slotMapWork (h : s.bindingsAgree) : s.slotMapWork.bindingsAgree := by
  unfold State.slotMapWork
  split
  case isFalse => exact h
  case isTrue waits =>
    have link := h.inLink fun nothing => by rw [nothing] at waits; cases waits
    have begun : State.Alike s (s.setBoundary { s.boundary with slotMap := false }) :=
      State.alike_setBoundary nofun fun nothing => by rw [nothing]; rfl
    have agree := begun.agree h
    generalize hu : s.setBoundary { s.boundary with slotMap := false } = u at agree
    have link' : u.inLink = true := by rw [← hu]; exact link
    have quiet : ∀ i b, u.lif.activity ≠ .sending i b := fun i b sending => by
      obtain ⟨-, -, -, -, -, sends, -⟩ := h
      rw [← hu] at sending
      rw [(sends i b sending).2.2] at waits
      cases waits
    dsimp only
    split
    case h_1 => exact (State.alike_setStc u rfl).agree agree
    case h_2 scanned =>
      have works := u.worksOn_foldl_slotStep u.usedSlots
      obtain ⟨-, -, -, -, sent, -⟩ := id agree
      have slots : (u.usedSlots.foldl State.slotStep u).SlotsAgree :=
        (agree.slotsAgree link').foldl_slotStep ((List.nodup_finRange 32).filter _) fun i used =>
          ⟨sent link' i, State.duplicateScan_none scanned (State.mem_usedSlots.mp used)⟩
      refine ⟨fun _ => slots.own, slots.one, fun off => ?_, slots.closed, fun _ i o seen => ?_, fun i b sending => ?_,
        fun _ => ?_, fun off => ?_⟩
      · rw [← Bool.not_eq_true] at off
        exact absurd ((congrArg (fun c => c.state.inLink) works.stc).trans link') off
      · simp [State.settle, Smap.emptied] at seen
      · exact absurd ((congrArg Lif.activity works.lif).symm.trans sending) (quiet i b)
      · exact (congrArg BoundaryWork.slotMap works.boundary).trans (by rw [← hu]; rfl)
      · rw [← Bool.not_eq_true] at off
        exact absurd ((congrArg (fun c => c.state.inLink) works.stc).trans link') off

/-! ## The boundary work of CLE, TKE and LNE -/

theorem State.alike_endRequest (s : State) (k : TalkId) (outcome : EventRecord) : s.Alike (s.endRequest k outcome) :=
  (s.alike_setCle _).trans (State.alike_post _ _)

theorem State.alike_claimWork (s : State) : s.Alike s.claimWork := by
  unfold State.claimWork
  refine .ite fun waits => ?_
  refine State.Alike.after (.foldl (fun t r => ?_) _ _) <| State.Alike.after (.foldl (fun t r => ?_) _ _) <|
    State.alike_setBoundary id fun nothing => by rw [nothing]; rfl
  · exact .ite fun _ => t.alike_endRequest _ _
  · exact .ite fun _ => t.alike_endRequest _ _

theorem State.alike_talkWork (s : State) : s.Alike s.talkWork := by
  unfold State.talkWork
  refine .ite fun _ => State.Alike.after (.foldl (fun t k => ?_) _ _) <|
    State.alike_setBoundary id fun nothing => by rw [nothing]; rfl
  exact State.alike_applyTalk (Talk.boundary_bound _ _) (Talk.boundary_closed _ _)

theorem State.alike_resolveListen (s : State) (k : ListenId) : s.Alike (s.resolveListen k) := by
  unfold State.resolveListen
  split
  · exact .refl s
  · exact s.alike_applyListen _ _

theorem State.alike_listenWork (s : State) : s.Alike s.listenWork := by
  unfold State.listenWork
  refine .ite fun _ => State.Alike.after (.foldl (fun t k => t.alike_resolveListen k) _ _) <|
    State.Alike.after (State.alike_eachListen _ _) <|
    State.alike_setBoundary id fun nothing => by rw [nothing]; rfl

theorem State.bindingsAgree.finishOthers (h : s.bindingsAgree) : s.finishOthers.bindingsAgree :=
  (State.alike_listenWork _).agree <| (State.alike_talkWork _).agree <| (State.alike_claimWork _).agree h.slotMapWork

/-! ## The end of a leave and FAULT (R30, R32) -/

theorem State.unbindChannels_talk (s : State) (k : TalkId) :
    s.unbindChannels.talk[k] = (Talk.leaveLink (s.talkContext k) s.talk[k]).chan := by
  rw [State.unbindChannels, State.eachListen_talk, State.eachTalk_get]

theorem State.unbindChannels_bound (s : State) (k : TalkId) : s.unbindChannels.talk[k].bound = none := by
  rw [s.unbindChannels_talk k, Talk.leaveLink_bound]

theorem State.bindingsAgree_enterReady (s : State) : s.enterReady.bindingsAgree := by
  rw [State.enterReady_eq]
  refine State.bindingsAgree_of_offLink ?_ (fun k => ?_) (fun i b => ?_) ?_
  · simp [State.inLink, StationState.inLink]
  · rw [State.post_talk, State.setStc_talk]
    exact State.unbindChannels_bound _ k
  · simp [State.offLink, State.unbindChannels, State.stopLink, Lif.stopped]
  · simp [State.offLink, State.unbindChannels, State.stopLink]

theorem State.bindingsAgree_enterFault (s : State) (cause : FaultCause) (slot : Option Slot) (tag : Option Tag) :
    (s.enterFault cause slot tag).bindingsAgree := by
  unfold State.enterFault
  refine State.bindingsAgree_of_offLink ?_ (State.unbindChannels_bound _) (fun i b => ?_) ?_
  · simp [State.inLink, StationState.inLink, State.unbindChannels, State.withdrawAll, State.stopLink]
  · simp [State.unbindChannels, State.withdrawAll, State.stopLink, Lif.stopped]
  · simp [State.unbindChannels, State.withdrawAll, State.stopLink]

theorem State.bindingsAgree.takeReport (h : s.bindingsAgree) : s.takeReport.bindingsAgree := by
  unfold State.takeReport
  split
  · exact h
  · split
    · exact State.bindingsAgree_enterFault _ _ _ _
    · exact (State.alike_setStc s rfl).agree h

theorem State.bindingsAgree_lineStuck (s : State) : s.lineStuck.bindingsAgree := State.bindingsAgree_enterFault _ _ _ _

/-! ## STC's boundary work -/

theorem State.alike_windowRound (s : State) : s.Alike s.windowRound := by
  unfold State.windowRound
  split
  · exact s.alike_setStc rfl
  · exact State.Alike.after (.ite fun _ => State.alike_post _ _) (s.alike_setStc rfl)

theorem State.alike_setStc_link {v : Stc} (link : v.state.inLink = s.inLink) : s.Alike (s.setStc v) :=
  { State.Alike.refl s with link := link }

theorem State.alike_learnRound (listening : s.stc.state = .listening) : s.Alike s.learnRound := by
  unfold State.learnRound
  dsimp only
  split
  · refine State.Alike.after (State.alike_post _ _) (State.alike_setStc_link ?_)
    rw [State.inLink, listening]
    rfl
  · exact s.alike_setStc rfl

theorem State.alike_joinRelease (s : State) (k : TalkId) : s.Alike (s.joinRelease k) := s.alike_setCle _

theorem State.alike_leaveRelease (s : State) (k : TalkId) : s.Alike (s.leaveRelease k) := by
  unfold State.leaveRelease
  exact .ite fun _ => State.Alike.after (State.alike_setStc _ rfl) (s.alike_joinRelease k)

theorem State.alike_leaveReleases (s : State) : s.Alike s.leaveReleases :=
  .foldl State.alike_leaveRelease s _

theorem State.bindingsAgree.stationRound (h : s.bindingsAgree) : s.stationRound.bindingsAgree := by
  have begun := (State.alike_setBoundary (s := s) (v := { s.boundary with station := false }) id
    fun nothing => by rw [nothing]; rfl).agree h
  unfold State.stationRound
  dsimp only
  split
  case h_1 listening =>
    split
    · exact State.bindingsAgree_enterReady _
    · exact (State.alike_windowRound _).agree ((State.alike_learnRound listening).agree begun)
  · exact (State.alike_windowRound _).agree begun
  · split
    · exact State.bindingsAgree_enterReady _
    · exact (State.alike_windowRound _).agree ((State.alike_leaveReleases _).agree begun)
  all_goals exact begun

theorem State.bindingsAgree.stationWork (h : s.bindingsAgree) : s.stationWork.bindingsAgree := by
  unfold State.stationWork State.beforeStation
  split
  · split
    · exact h.finishOthers.stationRound.takeReport
    · exact h.stationRound.takeReport
  · exact h

theorem State.bindingsAgree.finishBoundary (h : s.bindingsAgree) : s.finishBoundary.bindingsAgree :=
  h.finishOthers.takeReport.stationWork

end

end Sys2Proof.Machine

/-! The events of the line and the commands of the host keep the correspondence of the map and the bindings too (R42),
and the state after reset meets every invariant. -/

namespace Sys2Proof.Machine

section
variable {s : State}

/-! ## Markers (R5 to R10) -/

theorem State.bindingsAgree.timed (h : s.bindingsAgree) {time : Nat} {f : State → State}
    (acts : ∀ u, s.Alike u → u.bindingsAgree → (f u).bindingsAgree) : (s.timed time f).bindingsAgree := by
  unfold State.timed
  split
  · exact State.bindingsAgree_lineStuck _
  · exact acts _ (s.alike_reach _) ((s.alike_reach _).agree h)

theorem State.alike_countError (s : State) : s.Alike s.countError := by
  unfold State.countError
  exact .ite fun _ => s.alike_setStc rfl

theorem State.alike_elementRead (s : State) (start : Nat) (bits : List Bool) : s.Alike (s.elementRead start bits) :=
  State.alike_setLif nofun id

theorem State.bindingsAgree.lineRead (h : s.bindingsAgree) (began : Nat) (bits : List Bool) :
    (s.lineRead began bits).bindingsAgree :=
  h.timed fun _ _ agree => (State.alike_setLif_same rfl rfl).agree agree

theorem State.alike_closeRecord (s : State) : s.Alike s.closeRecord := by
  unfold State.closeRecord
  exact .ite fun _ => .foldl (fun t i => .ite fun _ => State.alike_observe rfl) s _

/-- A boundary goes to every block: LIF sends nothing and has opened no element of the new round (R8). -/
theorem State.bindingsAgree.begins (h : s.bindingsAgree) (link : s.inLink = true) (idle : s.lif.activity = .idle)
    (opened : s.lif.opened = 0) (v : BoundaryWork) : (s.setBoundary v).bindingsAgree := by
  obtain ⟨own, one, -, closed, sent, -⟩ := h
  exact ⟨own, one, fun off => absurd (link.symm.trans off) nofun, closed, sent,
    fun i b sending => absurd (idle.symm.trans sending) nofun,
    fun isOpen => absurd (isOpen.trans opened.le) (by decide), fun off => absurd (link.symm.trans off) nofun⟩

theorem State.bindingsAgree.acceptMarker (h : s.bindingsAgree) (link : s.inLink = true) (began : Nat) (bits : BitVec 24) :
    (s.acceptMarker began bits).bindingsAgree := by
  have record := s.alike_closeRecord
  unfold State.acceptMarker
  refine State.bindingsAgree.begins ?_ ?_ ?_ ?_ _
  · refine State.Alike.agree (State.alike_setLif ?_ ?_) <| (State.alike_setRtm _ _).agree (record.agree h)
    · exact nofun
    · exact nofun
  · exact record.link.trans link
  · rfl
  · rfl

theorem State.bindingsAgree.judgeMarker (h : s.bindingsAgree) (link : s.inLink = true) (began : Nat) (bits : BitVec 24) :
    (s.judgeMarker began bits).bindingsAgree := by
  have read := (s.alike_elementRead began (bitsOf bits)).agree h
  unfold State.judgeMarker
  dsimp only
  split
  · exact read
  · split
    · unfold State.shapeMismatch
      dsimp only
      split
      · exact State.bindingsAgree_enterFault _ _ _ _
      · exact (State.alike_setRtm _ _).agree <| (State.alike_setHpt _ _).agree read
    · split
      · exact read.acceptMarker link _ _
      · exact (State.alike_countError _).agree <| (State.alike_setLif_same rfl rfl).agree read

theorem State.bindingsAgree.heardMarker (h : s.bindingsAgree) (began : Nat) (bits : BitVec 24) :
    (s.heardMarker began bits).bindingsAgree := by
  unfold State.heardMarker
  split
  case isTrue link =>
    split
    · exact h.timed fun u alike agree => agree.judgeMarker (alike.link.trans link) _ _
    · split
      · exact h.timed fun u alike agree => agree.judgeMarker (alike.link.trans link) _ _
      · exact h.lineRead _ _
    all_goals exact h
  case isFalse => exact h

theorem State.bindingsAgree.markerSent (h : s.bindingsAgree) : s.markerSent.bindingsAgree := by
  unfold State.markerSent
  split
  case isTrue link =>
    split
    · exact h.timed fun u alike agree => agree.acceptMarker (alike.link.trans link) _ _
    all_goals exact h
  case isFalse => exact h

theorem State.alike_beginMarker (s : State) (time : Nat) : s.Alike (s.beginMarker time) :=
  State.alike_setLif nofun id

theorem State.alike_reachPeriod (s : State) (lineIdle : Bool) : s.Alike (s.reachPeriod lineIdle) := by
  unfold State.reachPeriod
  exact .ite fun _ => State.Alike.after (.ite fun _ => State.alike_beginMarker _ _) (s.alike_reach _)

theorem State.bindingsAgree.lineIdleMarker (h : s.bindingsAgree) (time : Nat) : (s.lineIdleMarker time).bindingsAgree := by
  unfold State.lineIdleMarker
  dsimp only
  split
  · exact h.timed fun u _ agree => (u.alike_beginMarker _).agree agree
  · exact h

theorem State.bindingsAgree.recognitionEnded (h : s.bindingsAgree) (began matched : Nat) :
    (s.recognitionEnded began matched).bindingsAgree := by
  unfold State.recognitionEnded
  split
  · exact h.lineRead _ _
  · exact h

theorem State.bindingsAgree.stuckTimeout (h : s.bindingsAgree) : s.stuckTimeout.bindingsAgree := by
  unfold State.stuckTimeout
  split
  · exact State.bindingsAgree_lineStuck _
  · exact h

/-! ## The claim window (R11 to R13) -/

theorem State.alike_chooseMessage (s : State) : s.Alike s.chooseMessage.1 := by
  unfold State.chooseMessage
  split
  · exact (s.alike_setCle _).trans (State.alike_postAll _ _)
  · exact .refl s

theorem State.alike_lostRequest (s : State) (k : TalkId) (r : ClaimRequest) (ends : Option ClaimCause) :
    s.Alike (s.lostRequest k r ends) := by
  unfold State.lostRequest
  split
  · exact s.alike_endRequest _ _
  · split
    · split <;> exact s.alike_endRequest _ _
    · exact s.alike_setCle _

theorem State.alike_windowResult (s : State) (part : WindowPart) : s.Alike (s.windowResult part) := by
  unfold State.windowResult
  split
  · exact .refl s
  · have taken := s.alike_setCle { s.cle with onLine := none, lineEnds := none }
    dsimp only
    split
    · exact taken.trans (State.alike_setCle _ _)
    · exact taken.trans (State.alike_lostRequest _ _ _ _)
    all_goals exact taken

theorem State.slotMapWork_done (s : State) : s.slotMapWork.boundary.slotMap = false := by
  unfold State.slotMapWork
  split
  · dsimp only
    split
    · rfl
    · exact congrArg BoundaryWork.slotMap (State.worksOn_foldl_slotStep _ _).boundary
  · simpa using ‹¬s.boundary.slotMap = true›

theorem State.finishOthers_done (s : State) : s.finishOthers.boundary.slotMap = false := by
  have waits := ((State.alike_claimWork _).trans <| (State.alike_talkWork _).trans <|
    State.alike_listenWork _).slotMap (s := s.slotMapWork)
  rw [← Bool.not_eq_true]
  exact fun late => absurd (waits late) (by rw [s.slotMapWork_done]; nofun)

theorem State.enterFault_boundary (s : State) (cause : FaultCause) (slot : Option Slot) (tag : Option Tag) :
    (s.enterFault cause slot tag).boundary = .nothing := by
  simp [State.enterFault, State.unbindChannels, State.withdrawAll, State.stopLink]

theorem State.enterReady_boundary (s : State) : s.enterReady.boundary = .nothing := by
  rw [State.enterReady_eq]
  simp [State.offLink, State.unbindChannels, State.stopLink]

theorem State.takeReport_done (h : s.boundary.slotMap = false) : s.takeReport.boundary.slotMap = false := by
  unfold State.takeReport
  split
  · exact h
  · split
    · rw [State.enterFault_boundary]; rfl
    · exact h

theorem State.Alike.done {t : State} (alike : s.Alike t) (h : s.boundary.slotMap = false) : t.boundary.slotMap = false := by
  rw [← Bool.not_eq_true]
  exact fun late => absurd (alike.slotMap late) (by rw [h]; nofun)

theorem State.stationRound_done (h : s.boundary.slotMap = false) : s.stationRound.boundary.slotMap = false := by
  unfold State.stationRound
  dsimp only
  split
  case h_1 listening =>
    split
    · rw [State.enterReady_boundary]; rfl
    · exact (State.Alike.trans (State.alike_learnRound listening) (State.alike_windowRound _)).done h
  · exact (State.alike_windowRound _).done h
  · split
    · rw [State.enterReady_boundary]; rfl
    · exact (State.Alike.trans (State.alike_leaveReleases _) (State.alike_windowRound _)).done h
  all_goals exact h

/-- Once the boundary is finished, SMAP's share of it does not wait (R62). -/
theorem State.finishBoundary_done (s : State) : s.finishBoundary.boundary.slotMap = false := by
  have before := State.takeReport_done s.finishOthers_done
  unfold State.finishBoundary State.stationWork State.beforeStation
  split
  · split
    · exact State.takeReport_done (State.stationRound_done (State.finishOthers_done _))
    · exact State.takeReport_done (State.stationRound_done before)
  · exact before

theorem State.bindingsAgree.openWindow (h : s.bindingsAgree) (done : s.boundary.slotMap = false) :
    s.openWindow.bindingsAgree := by
  unfold State.openWindow
  split
  · have chosen := s.alike_chooseMessage.trans (State.alike_reach _ Config.windowOpens)
    obtain ⟨own, one, off, closed, sent, -, -, nothing⟩ := chosen.agree h
    exact ⟨own, one, off, closed, sent, nofun, fun _ => chosen.done done, nothing⟩
  · exact h

theorem State.alike_endWindow (s : State) (line : BitVec 28) : s.Alike (s.endWindow line) := by
  unfold State.endWindow
  split
  case h_1 sent _ =>
    refine State.Alike.after (State.alike_windowResult _ _) <| State.Alike.after (.ite fun _ => ?_) <|
      State.Alike.after (State.alike_setSmap (fun _ => rfl) fun _ _ seen _ => seen) <|
      State.Alike.after (State.alike_reach _ _) ?_
    · exact State.Alike.after (State.alike_countError _) (State.alike_setLif_same rfl rfl)
    · split
      · exact State.alike_setLif nofun id
      · exact s.alike_elementRead _ _
  all_goals exact .refl s

/-! ## The data slots (R14 to R16) -/

theorem State.nextSlot_some {slot : Slot} (h : s.nextSlot = some slot) :
    s.lif.opened = slot.val + 1 ∧ slot.val < s.slots := by
  unfold State.nextSlot at h
  split at h
  · split at h
    · cases h
      exact ⟨by simp only; omega, ‹_›⟩
    · cases h
  · cases h

theorem State.bindingsAgree.openSlot (h : s.bindingsAgree) (startRecessive : Bool) :
    (s.openSlot startRecessive).bindingsAgree := by
  unfold State.openSlot
  split
  · exact h
  case h_2 slot next =>
    split
    case isFalse => exact h
    case isTrue mayOpen =>
      have opened : 1 ≤ s.lif.opened := (State.nextSlot_some next).1 ▸ Nat.le_add_left 1 _
      have link : s.inLink = true := by
        simp only [State.mayOpen, Bool.and_eq_true] at mayOpen
        exact mayOpen.1.1.1
      have begun : s.Alike ((s.setLif { s.lif with opened := s.lif.opened + 1 }).reach (slotTime slot.val)) :=
        State.Alike.after (State.alike_reach _ _) { State.Alike.refl s with opened := fun _ => opened }
      have agree := begun.agree h
      have done : s.boundary.slotMap = false := by
        obtain ⟨-, -, -, -, -, -, opens, -⟩ := h
        exact opens opened
      dsimp only
      split
      case h_1 k sender =>
        have atSlot : s.talk[k].bound = some slot := by
          unfold State.sender at sender
          split at sender
          · exact State.talkAt_some (s := s) sender
          · cases sender
        unfold State.sendBurst
        have handed := (State.alike_setTalk (s := (s.setLif { s.lif with opened := s.lif.opened + 1 }).reach (slotTime slot.val))
          (k := k) (v := s.talk[k].afterBurst) rfl .inl).agree agree
        obtain ⟨own, one, off, closed, sent, -, opens, nothing⟩ := handed
        refine ⟨own, one, off, closed, sent, fun i b sending => ?_, fun _ => done, nothing⟩
        cases sending
        exact ⟨link, ((h.slotsAgree link).own slot).mpr ⟨k, atSlot⟩, done⟩
      case h_2 =>
        unfold State.sampleSlot
        split
        · exact (State.alike_observe rfl).agree ((State.alike_reach _ _).agree agree)
        · refine State.Alike.agree (State.alike_setLif ?_ id) agree
          exact nofun

theorem State.alike_handBurst (s : State) (slot : Slot) (b : Burst) : s.Alike (s.handBurst slot b) :=
  s.alike_eachListen _

theorem State.alike_reportSent (s : State) (slot : Slot) : s.Alike (s.reportSent slot) := by
  unfold State.reportSent
  split
  · exact State.alike_applyTalk_stays (Talk.sent_staysBound _ _)
  · exact .refl s

/-- The observation of a slot the station sent in is that of an own slot (R43). -/
theorem State.bindingsAgree.observe (h : s.bindingsAgree) {slot : Slot} {o : Observation}
    (own : s.smap.entries[slot].isOwn = true) : (s.observe slot o).bindingsAgree := by
  obtain ⟨owns, one, off, closed, sent, rest⟩ := h
  refine ⟨owns, one, off, closed, fun link i p seen isSent => ?_, rest⟩
  simp only [State.observe, State.setSmap_smap, Fin.getElem_fin, Vector.getElem_set] at seen
  split at seen
  case isTrue same =>
    obtain rfl : slot = i := Fin.ext same
    exact own
  · exact sent link i p seen isSent

theorem State.bindingsAgree.endOwnBurst (h : s.bindingsAgree) (readback : LineBurst) :
    (s.endOwnBurst readback).bindingsAgree := by
  unfold State.endOwnBurst
  split
  case h_1 slot sent sending =>
    have own : s.smap.entries[slot].isOwn = true := by
      obtain ⟨-, -, -, -, -, sends, -⟩ := h
      exact (sends slot sent sending).2.1
    have read := (s.alike_elementRead (slotTime slot.val) (readback.bits sent.words.length)).trans
      (State.alike_reach _ (slotTime slot.val + burstBits sent.words.length))
    have observed := (read.agree h).observe (o := sentObservation sent readback) ((read.own slot).trans own)
    have reported := (State.alike_reportSent _ slot).agree observed
    dsimp only
    split
    · exact (State.alike_handBurst _ _ _).agree reported
    · exact reported
  all_goals exact h

theorem State.alike_endHeardBurst (s : State) (burst : LineBurst) : s.Alike (s.endHeardBurst burst) := by
  unfold State.endHeardBurst
  split
  case h_1 slot _ =>
    have read := (s.alike_elementRead (slotTime slot.val) burst.received).trans
      (State.alike_reach _ (slotTime slot.val + burst.received.length))
    dsimp only
    split
    · exact read.trans ((State.alike_observe rfl).trans (State.alike_handBurst _ _ _))
    · exact State.Alike.after (State.alike_countError _) <| State.Alike.after (State.alike_setLif_same rfl rfl) <|
        read.trans (State.alike_observe rfl)
  all_goals exact .refl s

/-! ## The Memory Port (R142, R144) -/

theorem State.alike_handResponse (s : State) (r : MemRequest) (error : Bool) (data : Vector Word 8) :
    s.Alike (s.handResponse r error data) := by
  unfold State.handResponse
  dsimp only
  split
  · exact State.alike_applyTalk_stays (Talk.response_staysBound _ _ _)
  · exact s.alike_applyListen _ _

theorem State.alike_takeResponse (s : State) (error : Bool) (data : Vector Word 8) :
    s.Alike (s.takeResponse error data) := by
  unfold State.takeResponse
  split
  · exact .refl s
  · split
    · exact s.alike_setMpt _
    · exact (s.alike_setMpt _).trans (State.alike_handResponse _ _ _ _)

/-! ## The host's commands -/

theorem State.bindingsAgree.off (h : s.bindingsAgree) (off : s.inLink = false) :
    (∀ k : TalkId, s.talk[k].bound = none) ∧ (∀ i b, s.lif.activity ≠ .sending i b) ∧ s.boundary = .nothing := by
  obtain ⟨-, -, unbound, -, -, sends, -, nothing⟩ := h
  refine ⟨unbound off, fun i b sending => ?_, nothing off⟩
  rw [(sends i b sending).1] at off
  cases off

theorem State.bindingsAgree.startCommand (h : s.bindingsAgree) : s.startCommand.2.bindingsAgree := by
  unfold State.startCommand
  split
  · exact h
  case isFalse started =>
    split
    · exact h
    · have off : s.inLink = false := by
        rw [State.inLink, show s.stc.state = .off by simpa using started]
        rfl
      obtain ⟨unbound, quiet, nothing⟩ := h.off off
      exact State.bindingsAgree_of_offLink rfl unbound quiet nothing

theorem State.bindingsAgree.joinCommand (h : s.bindingsAgree) : s.joinCommand.2.bindingsAgree := by
  unfold State.joinCommand
  split
  · exact h
  case isFalse ready =>
    have off : s.inLink = false := by
      rw [State.inLink, show s.stc.state = .ready by simpa using ready]
      rfl
    obtain ⟨unbound, -, nothing⟩ := h.off off
    refine ⟨fun _ i => ?_, fun j k i bound => ?_, nofun, fun k _ => unbound k, fun _ i o seen => ?_, nofun, nofun, nofun⟩
    · have notOwn : Smap.clear.entries[i].isOwn ≠ true := by rw [Smap.clear_entries]; nofun
      exact ⟨fun own => absurd own notOwn, fun ⟨k, bound⟩ => absurd ((unbound k).symm.trans bound) nofun⟩
    · exact absurd ((unbound j).symm.trans bound) nofun
    · simp [Smap.clear] at seen

theorem State.alike_leaveRequest (s : State) (r : ClaimRequest) : s.Alike (s.leaveRequest r) := by
  unfold State.leaveRequest
  refine .ite fun _ => ?_
  split
  · exact s.alike_setCle _
  · exact s.alike_endRequest _ _

theorem State.alike_withdrawClaims (s : State) : s.Alike s.withdrawClaims :=
  .foldl State.alike_leaveRequest s _

theorem State.alike_markReleases (s : State) : s.Alike s.markReleases := by
  unfold State.markReleases
  refine .foldl (fun t r => ?_) s _
  exact .ite fun _ => t.alike_setStc rfl

theorem State.bindingsAgree.leaveJoined (h : s.bindingsAgree) (joined : s.stc.state = .joined) :
    s.leaveJoined.bindingsAgree := by
  have before : s.beforeLeave.bindingsAgree := by
    unfold State.beforeLeave
    split
    · exact h
    · exact h.finishOthers
  have link : s.beforeLeave.inLink = true := by
    rw [State.inLink, State.beforeLeave_state, joined]
    rfl
  unfold State.leaveJoined
  refine State.Alike.agree (State.alike_leaveReleases _) <| State.Alike.agree (State.alike_markReleases _) <|
    State.Alike.agree (State.alike_withdrawClaims _) <| State.Alike.agree (State.alike_setStc_link ?_) before
  exact link.symm

theorem State.bindingsAgree.leaveCommand (h : s.bindingsAgree) : s.leaveCommand.2.bindingsAgree := by
  unfold State.leaveCommand
  split
  · dsimp only
    exact (s.alike_setStc rfl).agree h
  case h_2 joined =>
    dsimp only
    exact h.leaveJoined joined
  case h_3 fault =>
    have off : s.inLink = false := by rw [State.inLink, fault]; rfl
    obtain ⟨unbound, quiet, nothing⟩ := h.off off
    dsimp only
    refine State.Alike.agree (State.alike_post _ _) ?_
    exact State.bindingsAgree_of_offLink rfl unbound quiet nothing
  all_goals exact h

theorem State.bindingsAgree.openTalkCommand (h : s.bindingsAgree) : s.openTalkCommand.2.bindingsAgree := by
  unfold State.openTalkCommand
  split
  · exact h
  · split
    · exact h
    · split
      · exact h
      case isFalse p _ closed =>
        have unbound : s.talk[p.channel].bound = none := by
          obtain ⟨-, -, -, closes, -⟩ := h
          exact closes _ (by simpa using closed)
        exact (State.alike_applyTalk ((Talk.opened_bound _ _ _).trans unbound.symm) fun _ => .inr unbound).agree h

theorem State.alike_openListenCommand (s : State) : s.Alike s.openListenCommand.2 := by
  unfold State.openListenCommand
  split
  · exact .refl s
  · split
    · exact .refl s
    · split
      · exact .refl s
      · dsimp only
        exact s.alike_applyListen _ _

theorem State.alike_closeNotice (s : State) (k : TalkId) : s.Alike (s.closeNotice k) := by
  unfold State.closeNotice
  split
  · exact .refl s
  · split
    · exact .refl s
    · split
      · exact s.alike_setCle _
      · exact s.alike_endRequest _ _

theorem State.alike_abandonBound (s : State) (k : TalkId) : s.Alike (s.abandonBound k) := by
  unfold State.abandonBound
  split
  · split
    · exact .refl s
    · exact State.alike_setSmap (fun _ => rfl) fun _ _ seen _ => seen
  · exact .refl s

theorem State.bindingsAgree.closeTalk (h : s.bindingsAgree) (k : TalkId) : (s.closeTalk k).bindingsAgree := by
  have taken : s.Alike (((s.setTalk k { s.talk[k] with closeTaken := true }).abandonBound k).closeNotice k) :=
    State.Alike.after (State.alike_closeNotice _ _) <| State.Alike.after (State.alike_abandonBound _ _) <|
      State.alike_setTalk rfl .inl
  have agree := taken.agree h
  rw [State.closeTalk_eq]
  dsimp only
  split
  · exact agree
  case isFalse off =>
    have unbound := (agree.off (by simpa using off)).1 k
    exact (State.alike_applyTalk unbound.symm fun _ => .inr unbound).agree agree

theorem State.alike_closeListen (s : State) (k : ListenId) : s.Alike (s.closeListen k) := by
  unfold State.closeListen
  dsimp only
  split
  · exact s.alike_setListen _ _
  · exact (s.alike_setListen _ _).trans (State.alike_applyListen _ _ _)

theorem State.bindingsAgree.closeCommand (h : s.bindingsAgree) (code : BitVec 8) : (s.closeCommand code).bindingsAgree := by
  unfold State.closeCommand
  split
  · exact (s.alike_answer _ _).agree h
  · split
    · split
      · exact (s.alike_answer _ _).agree h
      · exact State.bindingsAgree.closeTalk ((s.alike_setHpt _).agree h) _
    · split
      · exact (s.alike_answer _ _).agree h
      · exact ((s.alike_setHpt _).trans (State.alike_closeListen _ _)).agree h

theorem State.alike_resumeCommand (s : State) (code : BitVec 8) : s.Alike (s.resumeCommand code) := by
  unfold State.resumeCommand
  split
  · exact s.alike_answer _ _
  · split
    · split
      · exact s.alike_answer _ _
      case h_1 k _ _ =>
        have waits : s.Alike ((s.setMailbox (.busy code)).setTalk k { s.talk[k] with resumeWaits := true }) :=
          (s.alike_setHpt _).trans (State.alike_setTalk rfl .inl)
        dsimp only
        split
        · exact waits
        · exact waits.trans (State.alike_applyTalk_stays (Talk.resumed_staysBound _ _))
    · split
      · exact s.alike_answer _ _
      · dsimp only
        split
        · exact (s.alike_setHpt _).trans (State.alike_setListen _ _ _)
        · exact (s.alike_setHpt _).trans ((State.alike_setListen _ _ _).trans (State.alike_applyListen _ _ _))

theorem State.alike_claimCommand (s : State) : s.Alike s.claimCommand.2 := by
  unfold State.claimCommand
  split
  · exact .refl s
  · split
    · split
      · exact .refl s
      · split
        · exact .refl s
        · split
          · exact .refl s
          · exact s.alike_setCle _
    · exact .refl s

theorem State.alike_releaseCommand (s : State) : s.Alike s.releaseCommand.2 := by
  unfold State.releaseCommand
  split
  · exact .refl s
  · split
    · split
      · exact .refl s
      · split
        · exact .refl s
        · split
          · exact .refl s
          · exact s.alike_setCle _
    · exact .refl s

theorem State.alike_fillWrite (s : State) (c : ChannelId) (value : Word) : s.Alike (s.fillWrite c value) := by
  unfold State.fillWrite
  dsimp only
  split
  · exact State.alike_applyTalk_stays (Talk.fill_staysBound _ _ _)
  · exact s.alike_applyListen _ _

theorem State.bindingsAgree_commandReset (s : State) : s.commandReset.bindingsAgree :=
  State.bindingsAgree_of_reset (by dsimp only [Stc.powerOn]; split <;> rfl) rfl

theorem State.bindingsAgree.answered {o : ResultCode × State} (h : o.2.bindingsAgree) (code : BitVec 8) :
    (answered code o).bindingsAgree := (State.alike_answer _ _ _).agree h

theorem State.bindingsAgree.takeCommand (h : s.bindingsAgree) (code : BitVec 8) : (s.takeCommand code).bindingsAgree := by
  unfold State.takeCommand
  split
  · exact h.startCommand.answered code
  · exact h.joinCommand.answered code
  · exact h.leaveCommand.answered code
  · exact s.bindingsAgree_commandReset
  · exact h.openTalkCommand.answered code
  · exact (s.alike_openListenCommand.agree h).answered code
  · exact h.closeCommand code
  · exact (s.alike_resumeCommand code).agree h
  · exact (s.alike_claimCommand.agree h).answered code
  · exact (s.alike_releaseCommand.agree h).answered code
  · exact State.bindingsAgree.answered (o := (.ok, s.readStatus)) ((State.alike_setHpt _ _).agree h.finishBoundary) code
  · exact State.bindingsAgree.answered (o := (.ok, s.readMap)) ((State.alike_setHpt _ _).agree h) code
  · exact (s.alike_answer _ _).agree h

theorem State.bindingsAgree.codeWrite (h : s.bindingsAgree) (code : BitVec 8) : (s.codeWrite code).bindingsAgree := by
  unfold State.codeWrite
  split
  · exact h
  · split
    · exact s.bindingsAgree_commandReset
    · dsimp only
      split
      · exact (State.alike_setHpt _ _).agree ((s.alike_setHpt _).agree h)
      all_goals exact State.bindingsAgree.takeCommand ((s.alike_setHpt _).agree h) code

theorem State.bindingsAgree.windowWrite (h : s.bindingsAgree) (index : BitVec 7) (value : Word) :
    (s.windowWrite index value).bindingsAgree := by
  unfold State.windowWrite
  dsimp only
  split
  · exact h
  · split
    · exact (s.alike_setHpt _).agree h
    · split
      · exact h.codeWrite _
      · split
        · exact (s.alike_setHpt _).agree h
        · split
          · exact (s.alike_fillWrite _ _).agree h
          · exact h

theorem State.alike_popRecord (s : State) : s.Alike s.popRecord := by
  unfold State.popRecord
  split
  · exact .refl s
  · split
    · exact s.alike_setEvq _
    · split <;> exact s.alike_setEvq _

end

/-! ## Every command -/

theorem exec_agree {i : Instr} {s t : State} (agree : s.bindingsAgree) (h : exec i s = .next t) : t.bindingsAgree := by
  have finished := agree.finishBoundary
  cases i with
  | periodReached lineIdle => cases h; exact (State.alike_reachPeriod _ _).agree finished
  | lineIdleMarker time => cases h; exact finished.lineIdleMarker _
  | ownMarkerSent => cases h; exact finished.markerSent
  | heardMarker began bits => cases h; exact finished.heardMarker _ _
  | lineStuckTimeout => cases h; exact finished.stuckTimeout
  | faultEntry => cases h; exact agree.takeReport
  | claimWindowOpen => cases h; exact finished.openWindow s.finishBoundary_done
  | claimWindowResult line => cases h; exact (s.alike_endWindow line).agree agree
  | slotOpen startRecessive => cases h; exact agree.openSlot _
  | burstSent readback => cases h; exact agree.endOwnBurst _
  | burstReceived burst => cases h; exact (s.alike_endHeardBurst burst).agree agree
  | slotMapBoundaryWork => cases h; exact agree.slotMapWork
  | claimSettle => cases h; exact s.alike_claimWork.agree agree
  | talkBoundaryWork => cases h; exact s.alike_talkWork.agree agree
  | listenBoundaryWork => cases h; exact s.alike_listenWork.agree agree
  | stationBoundaryWork => cases h; exact agree.stationWork
  | arbiterGrant => cases h; exact (s.alike_setMpt _).agree agree
  | memoryResponse error data => cases h; exact (s.alike_takeResponse error data).agree agree
  | markerRecognitionEnded began matched => cases h; exact finished.recognitionEnded _ _
  | fillIndexWrite channel value => cases h; exact agree.windowWrite _ _
  | flagWrite value => cases h; exact agree.windowWrite _ _
  | windowWriteIgnored index value => cases h; exact agree.windowWrite _ _
  | pop => cases h; exact s.alike_popRecord.agree agree
  | powerOnReset => cases h; exact State.bindingsAgree_of_reset rfl rfl
  | rstNAssert => cases h; exact State.bindingsAgree_of_reset rfl rfl
  | rstNRelease => cases h; exact (s.alike_setRstHeld _).agree agree
  | start | join | leave | reset | openTalk | openListen | close | resume | claim | release | readStatus | readMap
  | unknownCommand _ | lostCommandWrite _ => cases h; exact agree.codeWrite _

/-- Settles O56: the bounds as in every step, and the correspondence because only SMAP's own steps, a binding, the end of
a leave, FAULT and the resets change what it speaks of. -/
theorem mapStaysInItsBounds : Obligations.MapStaysInItsBounds := by
  intro s t h
  refine ⟨fun bounded unused => ⟨(step_keeps h).map bounded, (step_keeps h).unused unused⟩, fun agree => ?_⟩
  rcases step_cases h with rfl | ⟨c, rest, -, run⟩
  · exact agree
  · exact exec_agree ((s.alike_withPending rest).agree agree) run

/-! ## The state after reset -/

theorem Talk.lawful_of_dropped {t : Talk} (h : t.toChannelCore.Dropped) : t.lawful := ⟨h.lawful, fun _ => h.current⟩

theorem Listen.lawful_of_dropped {l : Listen} (h : l.toChannelCore.Dropped) : l.lawful := ⟨h.lawful, fun _ => h.current⟩

/-- Settles O60: every block is at its power-on values. -/
theorem resetMeetsTheInvariants : Obligations.ResetMeetsTheInvariants := by
  refine ⟨Nat.zero_le _, ⟨Nat.zero_le _, le_rfl⟩, List.nodup_nil, fun i => ?_, fun i _ => Smap.clear_entries i, ?_, ?_,
    nofun, ?_, ⟨fun k => ?_, fun k => ?_⟩, fun k => ?_, State.bindingsAgree_of_reset rfl rfl, fun k => ?_, rfl⟩
  · rw [show State.reset.smap.entries[i] = .free from Smap.clear_entries i]
    trivial
  · exact Stc.powerOn_consistent.cause
  · exact Stc.powerOn_consistent.start
  · exact ⟨Nat.zero_le _, nofun, Nat.zero_lt_succ _, Nat.zero_le _, Nat.zero_le _, Nat.zero_le _, Nat.zero_le _, Nat.zero_le _⟩
  · rw [State.reset_talk k]
    exact Talk.lawful_of_dropped Talk.clear_dropped
  · rw [State.reset_listen k]
    exact Listen.lawful_of_dropped Listen.clear_dropped
  · rw [State.reset_listen k]
    exact Nat.zero_le _
  · rw [State.reset_talk k]
    exact Nat.zero_le _

end Sys2Proof.Machine

/-! The line and descriptor formats read back (R16, R172 to R174). -/

namespace Sys2Proof.Machine

/-! ## Claim messages and markers (R172, R173) -/

theorem index5_bits5 (x : Fin 32) : index5 (bits5 x) = x :=
  Fin.ext (Nat.mod_eq_of_lt x.isLt)

theorem bits5_index5 (b : BitVec 5) : bits5 (index5 b) = b := BitVec.ofNat_toNat 5 b |>.trans b.setWidth_eq

namespace ClaimMessage
variable (m : ClaimMessage)

/-- The check follows the covered bits. -/
theorem bits_parts : m.bits.extractLsb' 8 19 = m.covered ∧ m.bits.extractLsb' 0 8 = claimCheck m.covered :=
  ⟨BitVec.extractLsb'_append_eq_left, BitVec.extractLsb'_append_eq_right⟩

/-- A field of a message above its check. -/
theorem bits_extract {start len : Nat} (above : 8 ≤ start) :
    m.bits.extractLsb' start len = m.covered.extractLsb' (start - 8) len :=
  BitVec.extractLsb'_append_eq_of_le above

theorem covered_tag : m.covered.extractLsb' 0 8 = m.tag := BitVec.extractLsb'_append_eq_right

theorem covered_station : m.covered.extractLsb' 8 5 = bits5 m.station :=
  (BitVec.extractLsb'_append_eq_of_le (by decide)).trans BitVec.extractLsb'_append_eq_right

theorem covered_slot : m.covered.extractLsb' 13 5 = bits5 m.slot :=
  (BitVec.extractLsb'_append_eq_of_le (by decide)).trans <|
    (BitVec.extractLsb'_append_eq_of_le (by decide)).trans BitVec.extractLsb'_append_eq_right

theorem covered_kind : m.covered.extractLsb' 18 1 = m.kind.bit :=
  (BitVec.extractLsb'_append_eq_of_le (by decide)).trans <|
    (BitVec.extractLsb'_append_eq_of_le (by decide)).trans BitVec.extractLsb'_append_eq_left

theorem bits_kind : m.bits.getLsbD 26 = (m.kind == .claim) := by
  have bit : m.bits.getLsbD 26 = (m.bits.extractLsb' 26 1).getLsbD 0 := by simp
  rw [bit, m.bits_extract (by decide), m.covered_kind]
  cases m.kind <;> rfl

/-- A claim message is read back as it was sent (R172). -/
theorem messageOf_bits : messageOf m.bits = m := by
  unfold messageOf
  rw [m.bits_kind, m.bits_extract (start := 21) (by decide), m.bits_extract (start := 16) (by decide),
    m.bits_extract (start := 8) (by decide), m.covered_slot, m.covered_station, m.covered_tag, index5_bits5,
    index5_bits5]
  obtain ⟨kind, slot, station, tag⟩ := m
  cases kind <;> rfl

theorem messageGood_bits : messageGood m.bits = true := by
  obtain ⟨covered, check⟩ := m.bits_parts
  rw [messageGood, covered, check, beq_self_eq_true]

end ClaimMessage

section
variable (shape : Shape)

theorem markerPatternOf_ownMarker : markerPatternOf (ownMarker shape) = 0x16CF#16 :=
  (BitVec.extractLsb'_append_eq_of_le (by decide)).trans BitVec.extractLsb'_append_eq_left

theorem markerCodeOf_ownMarker : markerCodeOf (ownMarker shape) = shape.code := by
  have code : (ownMarker shape).extractLsb' 6 2 = BitVec.ofNat 2 shape.code :=
    (BitVec.extractLsb'_append_eq_of_le (by decide)).trans BitVec.extractLsb'_append_eq_right
  rw [markerCodeOf, code]
  cases shape <;> rfl

theorem markerGood_ownMarker : markerGood (ownMarker shape) = true := by
  have covered : (ownMarker shape).extractLsb' 6 18 = markerCovered (BitVec.ofNat 2 shape.code) :=
    BitVec.extractLsb'_append_eq_left
  have check : (ownMarker shape).extractLsb' 0 6 = markerCheck (markerCovered (BitVec.ofNat 2 shape.code)) :=
    BitVec.extractLsb'_append_eq_right
  rw [markerGood, covered, check, beq_self_eq_true]

end

/-- Settles O50: a message's and a marker's fields stand where they are read. -/
theorem claimMessagesAndMarkersReadBack : Obligations.ClaimMessagesAndMarkersReadBack :=
  ⟨fun m => ⟨m.messageOf_bits, m.messageGood_bits⟩,
    fun shape => ⟨markerPatternOf_ownMarker shape, markerCodeOf_ownMarker shape, markerGood_ownMarker shape⟩⟩

/-! ## Bursts (R16, R172, R173) -/

namespace Burst
variable (b : Burst)

/-- A field of the line's header, below its start bit. -/
theorem header_extract {start len : Nat} (inside : start + len ≤ 22) :
    b.line.header.extractLsb' start len = b.header.extractLsb' start len :=
  BitVec.extractLsb'_append_eq_of_add_le inside

theorem header_whole : b.line.header.extractLsb' 0 22 = b.header := BitVec.extractLsb'_append_eq_right

theorem header_sequence : b.header.extractLsb' 0 4 = b.sequence := BitVec.extractLsb'_append_eq_right

theorem header_count : b.header.extractLsb' 4 4 = BitVec.ofNat 4 b.words.length :=
  (BitVec.extractLsb'_append_eq_of_le (by decide)).trans BitVec.extractLsb'_append_eq_right

theorem header_kind : b.header.extractLsb' 8 1 = b.kind.bit :=
  (BitVec.extractLsb'_append_eq_of_le (by decide)).trans <|
    (BitVec.extractLsb'_append_eq_of_le (by decide)).trans BitVec.extractLsb'_append_eq_right

theorem header_tag : b.header.extractLsb' 9 8 = b.tag :=
  (BitVec.extractLsb'_append_eq_of_le (by decide)).trans <|
    (BitVec.extractLsb'_append_eq_of_le (by decide)).trans <|
      (BitVec.extractLsb'_append_eq_of_le (by decide)).trans BitVec.extractLsb'_append_eq_right

theorem header_owner : b.header.extractLsb' 17 5 = bits5 b.owner :=
  (BitVec.extractLsb'_append_eq_of_le (by decide)).trans <|
    (BitVec.extractLsb'_append_eq_of_le (by decide)).trans <|
      (BitVec.extractLsb'_append_eq_of_le (by decide)).trans BitVec.extractLsb'_append_eq_left

theorem line_kind : b.line.header.getLsbD 8 = (b.kind == .data) := by
  have bit : b.line.header.getLsbD 8 = (b.line.header.extractLsb' 8 1).getLsbD 0 := by simp
  rw [bit, b.header_extract (by decide), b.header_kind]
  cases b.kind <;> rfl

/-- The start bit is dominant (R172). -/
theorem line_start : b.line.header.getMsbD 0 = false := by
  rw [BitVec.getMsbD_eq_getLsbD, show b.line.header = 0#1 ++ b.header from rfl, BitVec.getLsbD_append]
  simp

variable {b} (few : b.words.length ≤ 8)
include few

theorem line_count : b.line.count = b.words.length := by
  rw [LineBurst.count, b.header_extract (by decide), b.header_count, BitVec.toNat_ofNat]
  exact Nat.mod_eq_of_lt (by omega)

/-- The payload of the line holds the words first. -/
theorem line_firstWords : b.line.firstWords b.words.length = b.words := by
  refine List.ext_getElem ?_ fun i _ inside => ?_
  · simp only [LineBurst.firstWords, List.length_take, Vector.length_toList]
    omega
  · simp [LineBurst.firstWords, Burst.line, inside]

theorem line_burst : b.line.burst = b := by
  unfold LineBurst.burst
  rw [line_count few, line_firstWords few, b.line_kind, b.header_extract (start := 17) (by decide),
    b.header_extract (start := 9) (by decide), b.header_extract (start := 0) (by decide), b.header_owner, b.header_tag,
    b.header_sequence, index5_bits5]
  obtain ⟨owner, tag, kind, sequence, words⟩ := b
  cases kind <;> rfl

theorem line_good : b.line.good b.line.check = true := by
  rw [LineBurst.good, line_count few, line_firstWords few, b.header_whole]
  exact beq_self_eq_true _

theorem line_wellFormed (tag : b.tag ≠ 0) (fill : b.kind = .fill → b.words = []) : b.line.malformed = false := by
  have count : ¬ 8 < b.words.length := Nat.not_lt.mpr few
  have fills : b.kind = .fill → b.words.length = 0 := fun isFill => by rw [fill isFill, List.length_nil]
  unfold LineBurst.malformed
  rw [line_count few, line_burst few]
  simp only [Config.burstWords, Bool.or_eq_false_iff, Bool.and_eq_false_iff]
  refine ⟨⟨decide_eq_false count, ?_⟩, by simpa using tag⟩
  cases kind : b.kind with
  | data => exact .inl rfl
  | fill => exact .inr (by rw [fills kind]; rfl)

end Burst

/-- Settles O51: the header's fields, the words and the check stand where they are read, and the header is well formed. -/
theorem burstsReadBack : Obligations.BurstsReadBack := by
  intro b few tag fill
  refine ⟨?_, Burst.line_count few, b.line_start⟩
  rw [LineBurst.valid, Burst.line_wellFormed few tag fill, Burst.line_good few, Burst.line_burst few]
  rfl

/-! ## Descriptor words (R174) -/

section
variable (result : WritebackResult) (n : Nat) (stamp : BitVec 16) (sequence : Option (BitVec 4)) (start len : Nat)

theorem WritebackResult.code_lt : result.code < 4 := by cases result <;> decide

/-- A field of completion word 2, part by part. -/
theorem completionWord2_extract : (completionWord2 result n).extractLsb' start len =
    (place (n % 16384) 0).extractLsb' start len ||| (place result.code 28).extractLsb' start len |||
      (place true.toNat 31).extractLsb' start len := by
  simp only [completionWord2, placeBit, BitVec.extractLsb'_or]

/-- A field of completion word 3, part by part; an absent sequence reads 0. -/
theorem completionWord3_extract : (completionWord3 stamp sequence).extractLsb' start len =
    (place stamp.toNat 0).extractLsb' start len ||| (place (sequence.getD 0).toNat 20).extractLsb' start len |||
      (place sequence.isSome.toNat 24).extractLsb' start len := by
  cases sequence with
  | none =>
    have zero : ∀ shift, (place 0 shift).extractLsb' start len = 0#len := fun shift => by simp [place]
    simp [completionWord3, zero]
  | some q => simp only [completionWord3, placeBit, BitVec.extractLsb'_or]; rfl

end

/-- Settles O52: each field is placed at its bits, and the others are 0 there. -/
theorem descriptorWordsCarryTheirFields : Obligations.DescriptorWordsCarryTheirFields := by
  refine ⟨fun result n small => ?_, fun stamp sequence => ?_, fun w0 w1 => rfl, fun w0 w1 w1' length flags => ?_⟩
  · have code := result.code_lt
    have count : n % 16384 = n := Nat.mod_eq_of_lt small
    have done : true.toNat < 2 := by decide
    simp (disch := omega) only [getLsbD_eq_extract, completionWord2_extract, count, extract_place_same,
      extract_place_below, extract_place_above, BitVec.or_zero, BitVec.zero_or, ofNat_toNat_getLsbD, BitVec.toNat_ofNat,
      Nat.mod_eq_of_lt]
    simp
  · have low := stamp.isLt
    have middle := (sequence.getD 0).isLt
    have present : sequence.isSome.toNat < 2 := Bool.toNat_lt _
    simp (disch := omega) only [getLsbD_eq_extract, completionWord3_extract, extract_place_same,
      extract_place_below, extract_place_above, BitVec.or_zero, BitVec.zero_or, ofNat_toNat_getLsbD, BitVec.ofNat_toNat,
      BitVec.setWidth_eq]
    simp
  · have bits : ∀ i, i < 2 → w1.getLsbD (30 + i) = w1'.getLsbD (30 + i) := fun i small => by
      simpa [small] using congrArg (BitVec.getLsbD · i) flags
    simp only [descriptorOf, length, bits 0 (by decide), bits 1 (by decide)]

end Sys2Proof.Machine

/-! The step, the resets, JOIN and LEAVE, codes that do nothing. -/

namespace Sys2Proof.Machine

/-! ## Steps and resets -/

/-- Settles O1: by the definition of a step. -/
theorem stepRunsTheFrontCommand : Obligations.StepRunsTheFrontCommand := by
  refine ⟨fun s c rest pending => ?_, fun s none => ?_⟩
  · rw [step, pending]
    rfl
  · rw [step, none]

/-- Settles O2: the resets are the reset state with what each of them keeps. -/
theorem powerOnAndPinResetSetEveryBlock : Obligations.PowerOnAndPinResetSetEveryBlock := by
  intro s
  have quiet : s.powerOn.hirq = false := by
    simp [State.hirq, State.powerOn, State.reset, Evq.clear]
  refine ⟨⟨s.powerOn, rfl, rfl, rfl, rfl, rfl, rfl, rfl, fun k => ?_, fun k => ?_, rfl, rfl, rfl, quiet, rfl, rfl⟩, rfl,
    fun released => ⟨s.commandReset, exec_reset_of_released released, rfl, rfl, rfl, rfl, rfl, released, rfl⟩⟩
  · have clear : s.powerOn.talk[k] = Talk.clear := by simp [State.powerOn, State.reset]
    rw [clear]
    exact ⟨rfl, rfl, rfl, rfl, rfl, rfl, rfl, rfl, rfl, rfl, rfl, rfl, rfl, rfl⟩
  · have clear : s.powerOn.listen[k] = Listen.clear := by simp [State.powerOn, State.reset]
    rw [clear]
    exact ⟨rfl, rfl, rfl, rfl, rfl, rfl, rfl, rfl, rfl, rfl, rfl, rfl, rfl, rfl, rfl⟩

/-! ## JOIN and LEAVE (R25, R27) -/

/-- Settles O5: each command by the station state that it meets. -/
theorem joinAndPendingLeave : Obligations.JoinAndPendingLeave := by
  intro s taken
  rw [exec_join_of_takes taken, exec_leave_of_takes taken]
  refine ⟨fun ready => ?_, fun notReady => ?_, fun listening => ?_, fun outside => ?_⟩
  · simp [State.joinCommand, State.withCode, ready]
    rfl
  · simp [State.joinCommand, State.withCode, notReady]
    rfl
  · simp [State.leaveCommand, State.withCode, listening]
    rfl
  · rcases outside with off | ready | leaving
    · simp [State.leaveCommand, State.withCode, off]
      rfl
    · simp [State.leaveCommand, State.withCode, ready]
      rfl
    · simp [State.leaveCommand, State.withCode, leaving]
      rfl

/-! ## Codes that name no command, and codes lost (R151) -/

/-- A code that names no command is answered BAD_PARAM (R151, R175). -/
theorem State.takeCommand_of_unknown {s : State} {code : BitVec 8} (unknown : code = 0 ∨ 12 < code.toNat) :
    s.takeCommand code = s.answer .badParam code := by
  unfold State.takeCommand
  split
  case h_13 => rfl
  all_goals
    rcases unknown with rfl | large
    · simp_all
    · omega

/-- While the mailbox is BUSY every code but RESET's is lost (R151). -/
theorem State.codeWrite_of_busy {s : State} {code inProgress : BitVec 8} (released : s.rstHeld = false)
    (busy : s.hpt.mailbox = .busy inProgress) (other : code ≠ 4) :
    s.codeWrite code = { s with hpt := { s.hpt with code, flags := { s.hpt.flags with commandLost := true } } } := by
  unfold State.codeWrite
  rw [if_neg (by simp [released]), if_neg other]
  dsimp only
  split
  · rfl
  all_goals simp_all

/-- Settles O16: every code but RESET's goes the same way while the mailbox is BUSY. -/
theorem unknownAndLostCodesDoNothingElse : Obligations.UnknownAndLostCodesDoNothingElse := by
  refine ⟨fun s code taken unknown => ?_, fun s inProgress released busy =>
    ⟨fun code other => congrArg _ (State.codeWrite_of_busy released busy other), fun p named => ?_⟩⟩
  · have other : code ≠ 4 := by
      rintro rfl
      rcases unknown with zero | large
      · exact absurd zero (by decide)
      · exact absurd large (by decide)
    refine congrArg _ ((State.codeWrite_of_takes taken other).trans ?_)
    rw [State.takeCommand_of_unknown unknown]
    rfl
  · simp only [List.mem_cons, List.not_mem_nil, or_false] at named
    rcases named with rfl | rfl | rfl | rfl | rfl | rfl | rfl | rfl | rfl | rfl | rfl <;>
      exact congrArg _ (State.codeWrite_of_busy released busy (by decide))

end Sys2Proof.Machine

/-! What the event queue holds after the events of many channels, and what the channels are after the station has left
the link (R30, R32, R167). -/

namespace Sys2Proof.Machine

/-! ## The event queue after records (R165 to R167) -/

section
variable {s t : State} (evq : t.evq = s.evq) (start : t.stc.start = s.stc.start) (stamp : t.stamp = s.stamp)
include evq start stamp

theorem State.post_evq_congr (r : EventRecord) : (t.post r).evq = (s.post r).evq := by
  unfold State.post
  rw [State.records_congr start, stamp]
  split
  · unfold State.enter
    rw [evq]
    split <;> rfl
  · exact evq

/-- What records leave in the event queue depends on the queue, the mask and the stamp alone. -/
theorem State.postAll_evq_congr (rs : List EventRecord) : (t.postAll rs).evq = (s.postAll rs).evq := by
  induction rs generalizing s t with
  | nil => exact evq
  | cons r rs ih =>
    exact ih (State.post_evq_congr evq start stamp r) (by simpa using start) (by simpa [State.stamp] using stamp)

end

/-- Records join the queue at its tail, each of the kind it was made as (R167). -/
theorem State.postAll_queue_kinds {p : EventKind → Prop} {rs : List EventRecord} (kinds : ∀ r ∈ rs, p r.kind) (s : State) :
    ∃ more, (s.postAll rs).evq.queue = s.evq.queue ++ more ∧ ∀ r ∈ more, p r.kind := by
  induction rs generalizing s with
  | nil => exact ⟨[], by simp, by simp⟩
  | cons r rs ih =>
    obtain ⟨later, hlater, klater⟩ := ih (fun x mem => kinds x (List.mem_cons_of_mem _ mem)) (s.post r)
    have first : ∃ more, (s.post r).evq.queue = s.evq.queue ++ more ∧ ∀ x ∈ more, p x.kind := by
      unfold State.post State.enter
      split
      · split
        · exact ⟨_, rfl, by simpa using kinds r List.mem_cons_self⟩
        · exact ⟨[], by simp, by simp⟩
      · exact ⟨[], by simp, by simp⟩
    obtain ⟨more, hmore, kmore⟩ := first
    refine ⟨more ++ later, by rw [State.postAll_cons, hlater, hmore, List.append_assoc], fun x mem => ?_⟩
    exact (List.mem_append.mp mem).elim (kmore x) (klater x)

section
variable (s : State)

theorem State.applyTalk_evq (k : TalkId) (f : ChannelContext → Talk → Out Talk) :
    (s.applyTalk k f).evq = (s.postAll (f (s.talkContext k) s.talk[k]).records).evq := by
  have carried : ((s.setTalk k (f (s.talkContext k) s.talk[k]).chan).carry (talkChannel k)
      (f (s.talkContext k) s.talk[k])).evq = (s.postAll (f (s.talkContext k) s.talk[k]).records).evq := by
    unfold State.carry
    dsimp only
    split
    · rw [State.commandComplete_evq]
      exact State.postAll_evq_congr (by rfl) (by rfl) (by rfl) _
    · exact State.postAll_evq_congr (by rfl) (by rfl) (by rfl) _
  unfold State.applyTalk
  dsimp only
  split
  · rw [State.endRelease_evq, carried]
  · exact carried

theorem State.applyListen_evq (k : ListenId) (f : ChannelContext → Listen → Out Listen) :
    (s.applyListen k f).evq = (s.postAll (f (s.listenContext k) s.listen[k]).records).evq := by
  unfold State.applyListen State.carry
  dsimp only
  split
  · rw [State.commandComplete_evq]
    exact State.postAll_evq_congr (by rfl) (by rfl) (by rfl) _
  · exact State.postAll_evq_congr (by rfl) (by rfl) (by rfl) _

theorem State.foldl_applyTalk_evq (f : ChannelContext → Talk → Out Talk) (ids : List TalkId) (distinct : ids.Nodup) :
    (ids.foldl (fun s k => s.applyTalk k f) s).evq =
      (s.postAll (ids.flatMap fun k => (f (s.talkContext k) s.talk[k]).records)).evq := by
  induction ids generalizing s with
  | nil => rfl
  | cons j ids ih =>
    obtain ⟨fresh, distinct⟩ := List.nodup_cons.mp distinct
    have others : ∀ k ∈ ids, k ≠ j := fun k mem same => fresh (same ▸ mem)
    have same : (ids.flatMap fun k => (f ((s.applyTalk j f).talkContext k) (s.applyTalk j f).talk[k]).records) =
        ids.flatMap fun k => (f (s.talkContext k) s.talk[k]).records :=
      List.flatMap_congr fun k mem => by
        rw [State.applyTalk_talkContext, State.applyTalk_other f (others k mem).symm]
    rw [List.foldl_cons, ih _ distinct, same, List.flatMap_cons, State.postAll_append]
    exact State.postAll_evq_congr (s.applyTalk_evq j f) (by simp) (by simp [State.stamp]) _

theorem State.foldl_applyListen_evq (f : ChannelContext → Listen → Out Listen) (ids : List ListenId)
    (distinct : ids.Nodup) : (ids.foldl (fun s k => s.applyListen k f) s).evq =
      (s.postAll (ids.flatMap fun k => (f (s.listenContext k) s.listen[k]).records)).evq := by
  induction ids generalizing s with
  | nil => rfl
  | cons j ids ih =>
    obtain ⟨fresh, distinct⟩ := List.nodup_cons.mp distinct
    have others : ∀ k ∈ ids, k ≠ j := fun k mem same => fresh (same ▸ mem)
    have same : (ids.flatMap fun k => (f ((s.applyListen j f).listenContext k) (s.applyListen j f).listen[k]).records) =
        ids.flatMap fun k => (f (s.listenContext k) s.listen[k]).records :=
      List.flatMap_congr fun k mem => by
        rw [State.applyListen_listenContext, State.applyListen_other f (others k mem).symm]
    rw [List.foldl_cons, ih _ distinct, same, List.flatMap_cons, State.postAll_append]
    exact State.postAll_evq_congr (s.applyListen_evq j f) (by simp) (by simp [State.stamp]) _

/-- The records of one event at every talk channel stand in channel order. -/
theorem State.eachTalk_evq (f : ChannelContext → Talk → Out Talk) : (s.eachTalk f).evq =
    (s.postAll ((List.finRange 8).flatMap fun k => (f (s.talkContext k) s.talk[k]).records)).evq :=
  s.foldl_applyTalk_evq f _ (List.nodup_finRange 8)

/-- The records of one event at every listen channel stand in channel order. -/
theorem State.eachListen_evq (f : ChannelContext → Listen → Out Listen) : (s.eachListen f).evq =
    (s.postAll ((List.finRange 8).flatMap fun k => (f (s.listenContext k) s.listen[k]).records)).evq :=
  s.foldl_applyListen_evq f _ (List.nodup_finRange 8)

theorem State.eachTalk_reported (f : ChannelContext → Talk → Out Talk) : s.Reported (s.eachTalk f) :=
  State.eachTalk_induct (p := s.Reported) (fun t k h => h.trans (t.applyTalk_reported k f)) (.refl s)

theorem State.eachListen_reported (f : ChannelContext → Listen → Out Listen) : s.Reported (s.eachListen f) :=
  State.eachListen_induct (p := s.Reported) (fun t k h => h.trans (t.applyListen_reported k f)) (.refl s)

end

/-! ## The records of one channel's event -/

/-- Every record of an outcome is of a kind named. -/
def Out.Makes {α : Type} (p : EventKind → Prop) (o : Out α) : Prop := ∀ r ∈ o.records, p r.kind

section
variable {α β : Type} {p : EventKind → Prop} {o : Out α}

theorem Out.Makes.of_nil (h : o.records = []) : o.Makes p := by simp [Out.Makes, h]

theorem Out.Makes.andThen (h : o.Makes p) {f : α → Out β} (g : (f o.chan).Makes p) : (o.andThen f).Makes p :=
  fun r mem => (List.mem_append.mp mem).elim (h r) (g r)

theorem Out.Makes.record (h : o.Makes p) {r : EventRecord} (kind : p r.kind) : (o.record r).Makes p :=
  fun x mem => (List.mem_append.mp mem).elim (h x) fun mem => by rwa [List.mem_singleton.mp mem]

theorem Out.Makes.ite {q : Prop} [Decidable q] {a b : Out α} (h : q → a.Makes p) (g : ¬q → b.Makes p) :
    (if q then a else b).Makes p := by
  split
  · exact h ‹_›
  · exact g ‹_›

end

theorem Out.only_records_nil {α : Type} {p : EventKind → Prop} (a : α) : (Out.only a).Makes p := .of_nil rfl

section
variable {p : EventKind → Prop} (ctx : ChannelContext) (t : Talk)

theorem Talk.rejudge_makes (starved : p .channelStarved) : (t.rejudge ctx).Makes p := by
  unfold Out.Makes
  rw [t.rejudge_records ctx]
  split
  · simpa [event] using starved
  · simp

theorem Talk.pump_makes : (t.pump ctx).Makes p := .of_nil (by simp)

theorem ChannelCore.halt_records (c : ChannelCore) (reason : HaltReason) (sequence : Option (BitVec 4)) :
    (c.halt ctx reason sequence).records = [] := by
  unfold ChannelCore.halt
  cases reason with
  | dataFailed | writebackFailed => dsimp only; split <;> rfl
  | badDescriptor | fetchFailed | endBuffer => rfl

theorem Talk.enterHalted_makes (halted : p .channelHalted) (reason : HaltReason) : (t.enterHalted ctx reason).Makes p :=
  .record (.of_nil (t.toChannelCore.halt_records ctx reason none)) halted

theorem Talk.takeHeldHalt_makes (halted : p .channelHalted) : (t.takeHeldHalt ctx).Makes p := by
  unfold Talk.takeHeldHalt
  split
  · exact .of_nil rfl
  · exact .ite (fun _ => .of_nil rfl) fun _ => t.enterHalted_makes ctx halted _

theorem Talk.cutOff_makes (halted : p .channelHalted) : (t.cutOff ctx).Makes p := by
  unfold Talk.cutOff
  split
  · exact .of_nil rfl
  · exact Talk.takeHeldHalt_makes ctx _ halted

theorem Talk.loseSlot_makes : (t.loseSlot ctx).Makes p := .ite (fun _ => Talk.pump_makes ctx _) fun _ => .of_nil rfl

theorem Talk.resumed_makes (starved : p .channelStarved) : (t.resumed ctx).Makes p := by
  have walked : (if t.state == .halted then
      (Talk.rejudge ctx { t with state := .armed, haltCause := none, resumeWaits := false }).andThen (Talk.pump ctx)
    else Out.only { t with resumeWaits := false }).Makes p :=
    .ite (fun _ => (Talk.rejudge_makes ctx _ starved).andThen (Talk.pump_makes ctx _)) fun _ => .of_nil rfl
  exact walked

theorem Talk.closeComplete_records : (t.closeComplete ctx).records = [] := by
  change (t.toChannelCore.close ctx none).records = []
  unfold ChannelCore.close
  dsimp only
  split <;> rfl

/-- A channel that leaves the link makes records of CHANNEL_HALTED and CHANNEL_STARVED only. -/
theorem Talk.leaveLink_makes (halted : p .channelHalted) (starved : p .channelStarved) : (t.leaveLink ctx).Makes p := by
  unfold Talk.leaveLink
  refine (((t.cutOff_makes ctx halted).andThen ?_).andThen ?_).andThen ?_
  · exact .ite (fun _ => Talk.loseSlot_makes ctx _) fun _ => .of_nil rfl
  · exact .ite (fun _ => Talk.resumed_makes ctx _ starved) fun _ => .of_nil rfl
  · exact .ite (fun _ => .of_nil (Talk.closeComplete_records ctx _)) fun _ => .of_nil rfl

end

section
variable {p : EventKind → Prop} (ctx : ChannelContext) (l : Listen)

@[simp] theorem Listen.endEpisode_chan : (l.endEpisode ctx).chan = { l with episode := none } := by
  unfold Listen.endEpisode
  split
  · rename_i none
    rw [← none]
    rfl
  · rfl

theorem Listen.endEpisode_makes (dropped : p .dropEpisode) : (l.endEpisode ctx).Makes p := by
  unfold Listen.endEpisode
  split
  · exact .of_nil rfl
  · exact .record (.of_nil rfl) dropped

theorem Listen.resumed_records : (l.resumed ctx).records = [] := by
  unfold Listen.resumed
  dsimp only
  split <;> simp

theorem Listen.closeComplete_records : (l.closeComplete ctx).records = [] := by
  change (l.toChannelCore.close ctx l.lastSequence).records = []
  unfold ChannelCore.close
  dsimp only
  split <;> rfl

theorem Listen.closeIfDone_makes : (l.closeIfDone ctx).Makes p :=
  .ite (fun _ => .of_nil (l.closeComplete_records ctx)) fun _ => .of_nil rfl

theorem Listen.applyClose_makes (dropped : p .dropEpisode) : (l.applyClose ctx).Makes p :=
  (Listen.endEpisode_makes ctx _ dropped).andThen (Listen.closeIfDone_makes ctx _)

theorem Listen.applyWaiting_makes (dropped : p .dropEpisode) : (l.applyWaiting ctx).Makes p :=
  Out.Makes.andThen (.ite (fun _ => .of_nil (l.resumed_records ctx)) fun _ => .of_nil rfl)
    (.ite (fun _ => Listen.applyClose_makes ctx _ dropped) fun _ => .of_nil rfl)

/-- A listen channel that leaves the link makes records of DROP_EPISODE only. -/
theorem Listen.leaveLink_makes (dropped : p .dropEpisode) : (l.leaveLink ctx).Makes p :=
  Out.Makes.andThen (.ite (fun _ => Listen.endEpisode_makes ctx _ dropped) fun _ => .of_nil rfl)
    (Listen.applyWaiting_makes ctx _ dropped)

end

/-! ## The channels off the link (R30, R32) -/

section
variable {ctx : ChannelContext} {t : Talk}

theorem Talk.cutOff_of_unheld (unheld : t.heldHalts = []) : t.cutOff ctx = Out.only { t with onLine := none } := by
  unfold Talk.cutOff
  split
  · rename_i none
    rw [← none]
  · exact Talk.takeHeldHalt_none unheld

/-- A bound channel with nothing held and nothing waiting loses its slot as the link is left. -/
theorem Talk.leaveLink_of_quiet (bound : t.bound.isSome = true) (unheld : t.heldHalts = []) (close : t.closeTaken = false)
    (resume : t.resumeWaits = false) : (t.leaveLink ctx).chan = (Talk.loseSlot ctx { t with onLine := none }).chan := by
  have lost : (Talk.loseSlot ctx { t with onLine := none }).chan.closeTaken = false ∧
      (Talk.loseSlot ctx { t with onLine := none }).chan.resumeWaits = false := by
    unfold Talk.loseSlot
    split
    · simp [Talk.rewound, close, resume]
    · exact ⟨close, resume⟩
  unfold Talk.leaveLink
  simp [Talk.cutOff_of_unheld unheld, bound, lost]

theorem Talk.loseSlot_state : (t.loseSlot ctx).chan.state =
    if t.state = .running ∨ t.state = .starved then .armed else t.state := by
  unfold Talk.loseSlot
  by_cases walks : t.state = .running ∨ t.state = .starved
  · simp [walks, Talk.rewound]
  · have stays : (t.state == .running || t.state == .starved) = false := by simpa using walks
    simp [walks, stays, Talk.unbind]

/-- An unbound channel with nothing held makes no record as the link is left. -/
theorem Talk.leaveLink_records_of_unbound (unbound : t.bound = none) (unheld : t.heldHalts = []) :
    (t.leaveLink ctx).records = [] := by
  have resumed : ∀ u : Talk, u.bound = none → (u.resumed ctx).records = [] := by
    intro u unbound
    unfold Talk.resumed
    dsimp only
    split
    · simp [Out.andThen, Talk.rejudge_records, Talk.judged, unbound]
    · rfl
  have waits : (if t.resumeWaits then Talk.resumed ctx { t with onLine := none } else
      Out.only { t with onLine := none }).records = [] := by
    split
    · exact resumed _ unbound
    · rfl
  have closes : ∀ u : Talk, (if u.closeTaken then u.closeComplete ctx else Out.only u).records = [] := fun u => by
    split
    · exact Talk.closeComplete_records ctx u
    · rfl
  unfold Talk.leaveLink
  rw [Talk.cutOff_of_unheld unheld]
  simp only [Out.only_andThen, unbound, Option.isSome_none, Bool.false_eq_true, if_false]
  change _ ++ _ = []
  rw [List.append_eq_nil_iff]
  exact ⟨by simpa only [unbound] using waits, closes _⟩

end

section
variable {ctx : ChannelContext} {l : Listen}

theorem Listen.resumed_bound (unbound : l.bound = none) : (l.resumed ctx).chan.bound = none := by
  unfold Listen.resumed
  dsimp only
  split
  · simp
  · exact unbound

theorem Listen.closeIfDone_bound (unbound : l.bound = none) : (l.closeIfDone ctx).chan.bound = none := by
  unfold Listen.closeIfDone
  split
  · rfl
  · exact unbound

theorem Listen.applyClose_bound : (l.applyClose ctx).chan.bound = none :=
  Listen.closeIfDone_bound (by rw [Listen.endEpisode_chan])

theorem Listen.applyWaiting_bound (unbound : l.bound = none) : (l.applyWaiting ctx).chan.bound = none := by
  unfold Listen.applyWaiting
  rw [Out.andThen_chan]
  generalize resumed : (if l.resumeWaits then l.resumed ctx else Out.only l).chan = m
  have stays : m.bound = none := by
    rw [← resumed]
    split
    · exact Listen.resumed_bound unbound
    · exact unbound
  split
  · exact Listen.applyClose_bound
  · exact stays

theorem Listen.applyWaiting_of_none (close : l.close ≠ .taken) (resume : l.resumeWaits = false) :
    l.applyWaiting ctx = Out.only l := by
  simp [Listen.applyWaiting, close, resume]

theorem Listen.leaveLink_bound : (l.leaveLink ctx).chan.bound = none := by
  unfold Listen.leaveLink
  rw [Out.andThen_chan]
  refine Listen.applyWaiting_bound ?_
  split <;> simp

/-- As the link is left a listen channel with nothing waiting is WAITING, or stays HALTED. -/
theorem Listen.leaveLink_state (close : l.close ≠ .taken) (resume : l.resumeWaits = false) :
    (l.leaveLink ctx).chan.state = if l.state = .receiving ∨ l.state = .starved then .waiting else l.state := by
  unfold Listen.leaveLink
  rw [Out.andThen_chan]
  by_cases bound : l.state = .receiving ∨ l.state = .starved
  · have leaves : (l.state == .receiving || l.state == .starved) = true := by simpa using bound
    simp only [leaves, if_true, Listen.endEpisode_chan]
    rw [Listen.applyWaiting_of_none (by exact close) (by exact resume)]
    simp [bound]
  · have stays : (l.state == .receiving || l.state == .starved) = false := by simpa using bound
    simp only [stays, Bool.false_eq_true, if_false, Out.only_chan]
    rw [Listen.applyWaiting_of_none (by exact close) (by exact resume)]
    simp [bound]

/-- Without a drop episode and a CLOSE that waits, a listen channel makes no record as the link is left. -/
theorem Listen.leaveLink_records (episode : l.episode = none) (close : l.close ≠ .taken) :
    (l.leaveLink ctx).records = [] := by
  have ended : ∀ m : Listen, m.episode = none → m.endEpisode ctx = Out.only m := fun m none => by
    simp [Listen.endEpisode, none]
  have waiting : ∀ m : Listen, m.close ≠ .taken → (m.applyWaiting ctx).records = [] := fun m open' => by
    unfold Listen.applyWaiting
    by_cases resumes : m.resumeWaits = true
    · have keeps : (m.resumed ctx).chan.close = m.close := by
        unfold Listen.resumed
        dsimp only
        split <;> simp
      simp [resumes, Out.andThen, Listen.resumed_records, keeps, open']
    · simp [resumes, open']
  unfold Listen.leaveLink
  simp only [Out.andThen, List.append_eq_nil_iff]
  constructor
  · split
    · rw [ended _ (by exact episode)]
      rfl
    · rfl
  · split
    · rw [Listen.endEpisode_chan]
      exact waiting _ close
    · exact waiting _ close

end

namespace State
variable (s : State)

theorem unbindChannels_listen (k : ListenId) :
    s.unbindChannels.listen[k] = (Listen.leaveLink (s.listenContext k) s.listen[k]).chan := by
  have stamp : (s.eachTalk Talk.leaveLink).listenContext k = s.listenContext k := by
    simp [State.listenContext, State.stamp]
  rw [State.unbindChannels, State.eachListen_get, stamp, State.eachTalk_listen]

/-- The records of the channels that leave the link: the talk channels' first, each kind in channel order. -/
def leaveRecords : List EventRecord :=
  ((List.finRange 8).flatMap fun k => (Talk.leaveLink (s.talkContext k) s.talk[k]).records) ++
    (List.finRange 8).flatMap fun k => (Listen.leaveLink (s.listenContext k) s.listen[k]).records

theorem unbindChannels_evq : s.unbindChannels.evq = (s.postAll s.leaveRecords).evq := by
  have same : ((List.finRange 8).flatMap fun k => (Listen.leaveLink ((s.eachTalk Talk.leaveLink).listenContext k)
      (s.eachTalk Talk.leaveLink).listen[k]).records) =
      (List.finRange 8).flatMap fun k => (Listen.leaveLink (s.listenContext k) s.listen[k]).records :=
    List.flatMap_congr fun k _ => by
      have stamp : (s.eachTalk Talk.leaveLink).listenContext k = s.listenContext k := by
        simp [State.listenContext, State.stamp]
      rw [stamp, State.eachTalk_listen]
  rw [State.unbindChannels, State.eachListen_evq, same, State.leaveRecords, State.postAll_append]
  exact State.postAll_evq_congr (s.eachTalk_evq _) (by simp) (by simp [State.stamp]) _

theorem leaveRecords_kinds {p : EventKind → Prop} (halted : p .channelHalted) (starved : p .channelStarved)
    (dropped : p .dropEpisode) : ∀ r ∈ s.leaveRecords, p r.kind := by
  intro r mem
  rcases List.mem_append.mp mem with talk | listen
  · obtain ⟨k, -, made⟩ := List.mem_flatMap.mp talk
    exact Talk.leaveLink_makes _ _ halted starved r made
  · obtain ⟨k, -, made⟩ := List.mem_flatMap.mp listen
    exact Listen.leaveLink_makes _ _ dropped r made

theorem unbindChannels_reported : s.Reported s.unbindChannels :=
  (s.eachTalk_reported _).trans (State.eachListen_reported _ _)

/-- The channels are unbound as the station leaves the link (R30, R32). -/
theorem channelsUnbound_unbindChannels : s.channelsUnbound s.unbindChannels := by
  refine ⟨fun k => ⟨s.unbindChannels_bound k, fun bound unheld close resume => ?_⟩, fun k => ⟨?_, fun close resume => ?_⟩⟩
  · rw [s.unbindChannels_talk k, Talk.leaveLink_of_quiet bound unheld close resume, Talk.loseSlot_state]
    exact ⟨fun walks => if_pos walks, fun halted => by simp [-Fin.getElem_fin, halted]⟩
  · rw [s.unbindChannels_listen k]
    exact Listen.leaveLink_bound
  · rw [s.unbindChannels_listen k, Listen.leaveLink_state close resume]
    exact ⟨fun walks => if_pos walks, fun halted => by simp [-Fin.getElem_fin, halted]⟩

end State

end Sys2Proof.Machine

/-! Entry into FAULT (R31, R32), the station's own marker, and the markers it hears (R2, R5 to R10). -/

namespace Sys2Proof.Machine

/-! ## Entry into FAULT (R31, R32, R81) -/

section
variable (ctx : ChannelContext) (t : Talk)

@[simp] theorem Talk.enterHalted_release (reason : HaltReason) : (t.enterHalted ctx reason).release = false := by
  change (t.toChannelCore.halt ctx reason none).release = false
  unfold ChannelCore.halt
  cases reason with
  | dataFailed | writebackFailed => dsimp only; split <;> rfl
  | badDescriptor | fetchFailed | endBuffer => rfl

@[simp] theorem Talk.takeHeldHalt_release : (t.takeHeldHalt ctx).release = false := by
  unfold Talk.takeHeldHalt
  split
  · rfl
  · split
    · rfl
    · simp

@[simp] theorem Talk.cutOff_release : (t.cutOff ctx).release = false := by
  unfold Talk.cutOff
  split <;> simp

@[simp] theorem Talk.resumed_release : (t.resumed ctx).release = false := by
  unfold Talk.resumed
  dsimp only
  split
  · simp [Out.andThen]
  · rfl

@[simp] theorem Talk.closeComplete_release : (t.closeComplete ctx).release = false := by
  change (t.toChannelCore.close ctx none).release = false
  unfold ChannelCore.close
  dsimp only
  split <;> rfl

/-- A channel that leaves the link asks for no RELEASE. -/
theorem Talk.leaveLink_release : (t.leaveLink ctx).release = false := by
  have loses : ∀ u : Talk, (if u.bound.isSome then u.loseSlot ctx else Out.only u).release = false := fun u => by
    split <;> simp [Talk.loseSlot_release]
  have resumes : ∀ u : Talk, (if u.resumeWaits then u.resumed ctx else Out.only u).release = false := fun u => by
    split <;> simp
  have closes : ∀ u : Talk, (if u.closeTaken then u.closeComplete ctx else Out.only u).release = false := fun u => by
    split <;> simp
  unfold Talk.leaveLink
  simp only [Out.andThen, Talk.cutOff_release, loses, resumes, closes, Bool.or_self]

end

namespace State
variable (s : State) (cause : FaultCause) (slot : Option Slot) (tag : Option Tag)

/-- The record of the entry into FAULT. -/
def faultRecord : EventRecord := event .faultEntered cause.code (slot := slot) (tag := tag)

/-- The station as the fault notice reaches the channels (R32, R81). -/
def faultQueued : State :=
  (((s.faulted cause).post (faultRecord cause slot tag)).stopLink.setSmap
    ((s.faulted cause).post (faultRecord cause slot tag)).stopLink.smap.emptied).withdrawAll

theorem enterFault_eq_unbind : s.enterFault cause slot tag = (s.faultQueued cause slot tag).unbindChannels := rfl

theorem faultQueued_stc : (s.faultQueued cause slot tag).stc = (s.faulted cause).stc := by
  simp [State.faultQueued, State.withdrawAll, State.stopLink]

theorem faultQueued_stamp : (s.faultQueued cause slot tag).stamp = s.stamp := by
  simp [State.faultQueued, State.withdrawAll, State.stopLink, State.stamp, State.faulted, Rtm.halted]

/-- The fault notice's own records: the entry's, then one for each request of the claim queue. -/
def faultRecords : List EventRecord := faultRecord cause slot tag :: s.cle.queue.map fun r => r.withdrawn .fault

theorem faultQueued_evq : (s.faultQueued cause slot tag).evq = (s.postAll (s.faultRecords cause slot tag)).evq := by
  have queue : ((s.faulted cause).post (faultRecord cause slot tag)).cle.queue = s.cle.queue := by
    simp [State.faulted]
  have entered : ((s.faulted cause).post (faultRecord cause slot tag)).evq =
      (s.post (faultRecord cause slot tag)).evq :=
    State.post_evq_congr (by rfl) (by rfl) (by rfl) _
  rw [State.faultRecords, State.postAll_cons]
  unfold State.faultQueued State.withdrawAll
  rw [State.setSmap_cle]
  have stopped : ((s.faulted cause).post (faultRecord cause slot tag)).stopLink.cle.queue = s.cle.queue := queue
  rw [stopped]
  refine State.postAll_evq_congr ?_ ?_ ?_ _
  · exact entered
  · simp [State.faulted, State.stopLink]
  · simp [State.faulted, State.stopLink, State.stamp, Rtm.halted]

theorem enterFault_evq : (s.enterFault cause slot tag).evq =
    (s.postAll (s.faultRecords cause slot tag ++ (s.faultQueued cause slot tag).leaveRecords)).evq := by
  rw [enterFault_eq_unbind, State.unbindChannels_evq, State.postAll_append]
  refine State.postAll_evq_congr (s.faultQueued_evq cause slot tag) ?_ ?_ _
  · simp [s.faultQueued_stc cause slot tag, State.faulted]
  · rw [s.faultQueued_stamp cause slot tag]
    simp [State.stamp]

/-- FAULT_ENTERED joins the queue first, if it has a place (R31, R165 to R167). -/
theorem enterFault_queue (place : s.evq.queue.length < 32) : ∃ more, (s.enterFault cause slot tag).evq.queue =
    s.evq.queue ++ { faultRecord cause slot tag with stamp := s.stamp } :: more := by
  have recorded : s.records (faultRecord cause slot tag).kind = true := State.records_link (.inl rfl)
  have first : (s.post (faultRecord cause slot tag)).evq.queue =
      s.evq.queue ++ [{ faultRecord cause slot tag with stamp := s.stamp }] := by
    rw [State.post_of_recorded recorded, State.enter_of_place place]
    rfl
  obtain ⟨more, later⟩ := (State.postAll_recorded (s.post (faultRecord cause slot tag))
    ((s.cle.queue.map fun r => r.withdrawn .fault) ++ (s.faultQueued cause slot tag).leaveRecords)).queue
  refine ⟨more, ?_⟩
  rw [enterFault_evq, State.faultRecords, List.cons_append, State.postAll_cons, later, first]
  simp

/-- The claim queue ends with its WITHDRAWN records, before the records of the channels (R81, R83). -/
theorem withdrawsAll_enterFault : s.withdrawsAll (s.enterFault cause slot tag) := by
  intro places
  have recorded : s.records (faultRecord cause slot tag).kind = true := State.records_link (.inl rfl)
  have own : (s.postAll (s.faultRecords cause slot tag)).evq.queue = s.evq.queue ++
      ({ faultRecord cause slot tag with stamp := s.stamp } :: if s.records .withdrawn = true then
        s.cle.queue.map fun r => { r.withdrawn .fault with stamp := s.stamp } else []) := by
    rw [State.postAll_queue_of_places _ (by simp [State.faultRecords]; omega), State.faultRecords]
    have kind : ∀ r : ClaimRequest, (r.withdrawn .fault).kind = .withdrawn := fun _ => rfl
    by_cases chosen : s.records .withdrawn = true
    · simp [recorded, List.filter_map, Function.comp_def, kind, chosen]
    · simp [recorded, List.filter_map, Function.comp_def, kind, chosen]
  obtain ⟨more, later, other⟩ := State.postAll_queue_kinds (p := (· ≠ .withdrawn))
    ((s.faultQueued cause slot tag).leaveRecords_kinds (p := (· ≠ .withdrawn)) (by decide) (by decide) (by decide))
    (s.postAll (s.faultRecords cause slot tag))
  have none : (more.filter fun r => r.kind == .withdrawn) = [] :=
    List.filter_eq_nil_iff.mpr fun r mem => by simpa using other r mem
  rw [enterFault_evq, State.postAll_append, later, own, List.append_assoc, List.drop_left, List.filter_append, none,
    List.append_nil]
  have entered : ((faultRecord cause slot tag).kind == .withdrawn) = false := rfl
  split
  · simp [entered, ClaimRequest.withdrawn, ClaimRequest.outcome, event, ClaimCause.code, List.filter_map,
      Function.comp_def]
  · simp [entered]

/-- The outstanding requests, the absorb count and the pointer of the Memory Port stay. -/
def PortKept (t : State) : Prop :=
  t.mpt.outstanding = s.mpt.outstanding ∧ t.mpt.absorb = s.mpt.absorb ∧ t.mpt.pointer = s.mpt.pointer

theorem portKept_unbindChannels : s.PortKept s.unbindChannels :=
  State.eachListen_induct (p := s.PortKept) (fun t k h => by rw [PortKept, State.applyListen_mpt]; exact h) <|
    State.eachTalk_induct (p := s.PortKept) (fun t k h => by rw [PortKept, State.applyTalk_mpt]; exact h) ⟨rfl, rfl, rfl⟩

theorem unbindChannels_cle : s.unbindChannels.cle = s.cle := by
  rw [State.unbindChannels, State.eachListen_cle]
  exact State.eachTalk_induct (p := fun t => t.cle = s.cle)
    (fun t k h => (State.applyTalk_cle (Talk.leaveLink_release _ _)).trans h) rfl

theorem linkStopped_unbindChannels {t : State} (stopped : s.linkStopped t) : s.linkStopped t.unbindChannels := by
  obtain ⟨rtm, lif, boundary, outstanding, absorb, pointer, code, params, snapshot, held, pending⟩ := stopped
  obtain ⟨o, a, p⟩ := t.portKept_unbindChannels
  have hpt := t.unbindChannels_reported.hpt
  refine ⟨?_, ?_, ?_, o.trans outstanding, a.trans absorb, p.trans pointer, ?_, ?_, ?_, ?_, ?_⟩
  · simpa [State.unbindChannels] using rtm
  · simpa [State.unbindChannels] using lif
  · simpa [State.unbindChannels] using boundary
  · rw [hpt]; exact code
  · rw [hpt]; exact params
  · rw [hpt]; exact snapshot
  · simpa [State.unbindChannels] using held
  · simpa [State.unbindChannels] using pending

theorem linkStopped_enterFault : s.linkStopped (s.enterFault cause slot tag) := by
  refine s.linkStopped_unbindChannels (t := s.faultQueued cause slot tag) ?_
  simp [State.linkStopped, State.faultQueued, State.withdrawAll, State.stopLink, State.faulted, Rtm.halted, Lif.stopped]

theorem channelsUnbound_enterFault : s.channelsUnbound (s.enterFault cause slot tag) := by
  have talk : (s.faultQueued cause slot tag).talk = s.talk := by
    simp [State.faultQueued, State.withdrawAll, State.stopLink, State.faulted]
  have listen : (s.faultQueued cause slot tag).listen = s.listen := by
    simp [State.faultQueued, State.withdrawAll, State.stopLink, State.faulted]
  have unbound := (s.faultQueued cause slot tag).channelsUnbound_unbindChannels
  rwa [State.channelsUnbound, talk, listen] at unbound

/-- Entry into FAULT (R31, R32, R81). -/
theorem entersFault_enterFault : s.entersFault (s.enterFault cause slot tag) cause := by
  refine ⟨?_, ?_, ?_, s.withdrawsAll_enterFault cause slot tag, s.linkStopped_enterFault cause slot tag,
    s.channelsUnbound_enterFault cause slot tag⟩
  · rw [enterFault_eq_unbind, State.unbindChannels_stc, s.faultQueued_stc cause slot tag]
    rfl
  · simp [enterFault_eq_unbind, State.unbindChannels, State.faultQueued, State.withdrawAll, State.stopLink, State.faulted,
      Smap.emptied]
  · rw [enterFault_eq_unbind, State.unbindChannels_cle]
    simp [State.faultQueued, State.withdrawAll, Cle.clear]

end State

/-- Entry into FAULT, told of the state before the command that brought it about. -/
theorem State.entersFault.of_same {s r t : State} {cause : FaultCause} (h : r.entersFault t cause) (stc : r.stc = s.stc)
    (smap : r.smap = s.smap) (cle : r.cle = s.cle) (evq : r.evq = s.evq) (talk : r.talk = s.talk)
    (listen : r.listen = s.listen) (stopped : s.linkStopped t) (stamp : r.stamp = s.stamp) :
    s.entersFault t cause := by
  obtain ⟨hstc, hsmap, hcle, withdrawn, -, unbound⟩ := h
  refine ⟨by rw [hstc, stc], by rw [hsmap, smap], hcle, ?_, stopped, ?_⟩
  · have records : r.records .withdrawn = s.records .withdrawn := State.records_congr (by rw [stc]) _
    rwa [State.withdrawsAll, evq, cle, records, stamp] at withdrawn
  · rwa [State.channelsUnbound, talk, listen] at unbound

end Sys2Proof.Machine

/-! The stuck line, a report taken, and the markers sent and heard (R2, R5 to R10, R31). -/

namespace Sys2Proof.Machine

/-- A command's outcome, from the state that it leaves. -/
theorem next_of_eq {s t : State} (h : s = t) : (.next s : Host.Outcome State Fault Refusal) = .next t := congrArg _ h

section
variable {s : State}

/-- Between boundaries, with no report waiting, finishing the boundary changes nothing. -/
theorem State.settled.finished (settled : s.settled) : s.finishBoundary = s :=
  State.finishBoundary_idle settled.1 settled.2

theorem State.inLink_ne_off (link : s.inLink = true) : s.stc.state ≠ .off := fun off => by
  simp [State.inLink, off, StationState.inLink] at link

/-- Before 2P an event that ends at a time takes its steps at that time (R10). -/
theorem State.timed_of_before {time : Nat} {f : State → State} (before : max s.now time ≤ 2 * s.period) :
    s.timed time f = f (s.reach time) := if_neg (Nat.not_lt.mpr before)

end

/-! ## FAULT (R10, R31, R48) -/

/-- E at 2P brings FAULT about (R10). -/
theorem State.entersFault_lineStuck {s : State} : s.entersFault s.lineStuck .stuck :=
  ((s.setFlags { s.hpt.flags with lineStuck := true }).entersFault_enterFault .stuck none none).of_same rfl rfl rfl rfl
    rfl rfl ((s.setFlags { s.hpt.flags with lineStuck := true }).linkStopped_enterFault .stuck none none) rfl

/-- A sticky flag that is set stays set (R161). -/
theorem State.Acts.lineStuck {s t : State} (h : s.Acts t) (set : s.hpt.flags.lineStuck = true) :
    t.hpt.flags.lineStuck = true := by
  obtain ⟨-, -, -, -, -, -, stuck, -⟩ := h.host
  exact stuck set

theorem State.Acts.shapeMismatch {s t : State} (h : s.Acts t) (set : s.hpt.flags.shapeMismatch = true) :
    t.hpt.flags.shapeMismatch = true := by
  obtain ⟨-, -, -, -, -, shape, -⟩ := h.host
  exact shape set

theorem State.lineStuck_flag {s : State} (link : s.inLink = true) : s.lineStuck.hpt.flags.lineStuck = true := by
  have started : (s.setFlags { s.hpt.flags with lineStuck := true }).stc.state ≠ .off := State.inLink_ne_off link
  have acts : (s.setFlags { s.hpt.flags with lineStuck := true }).Acts s.lineStuck :=
    State.acts_enterFault started .stuck none none
  refine acts.lineStuck ?_
  rw [State.setFlags_hpt]

/-- Settles O23: each cause is the entry into FAULT of `State.entersFault_enterFault`. -/
theorem faultsStopTheStation : Obligations.FaultsStopTheStation := by
  refine fun s => ⟨fun settled link => ?_, fun settled off => ?_, fun r report state => ?_, fun none => ?_, fun state => ?_⟩
  · have stuck : s.finishBoundary.stuckTimeout = s.lineStuck := by
      rw [settled.finished, State.stuckTimeout, if_pos link]
    refine ⟨s.lineStuck, next_of_eq stuck, State.entersFault_lineStuck, State.lineStuck_flag link, fun place => ?_⟩
    obtain ⟨more, queue⟩ := (s.setFlags { s.hpt.flags with lineStuck := true }).enterFault_queue .stuck none none place
    rw [State.lineStuck, queue]
    exact List.mem_append_right _ List.mem_cons_self
  · have quiet : s.finishBoundary.stuckTimeout = s := by
      rw [settled.finished, State.stuckTimeout, if_neg (by simp [off])]
    exact next_of_eq quiet
  · have takes : s.stc.state.takesReport = true := by
      rcases state with link | ready
      · revert link
        unfold State.inLink
        cases s.stc.state <;> simp [StationState.inLink, StationState.takesReport]
      · rw [ready]
        rfl
    refine ⟨_, next_of_eq (State.takeReport_some report takes), s.entersFault_enterFault _ _ _, fun place => ?_⟩
    obtain ⟨more, queue⟩ := s.enterFault_queue .duplicateId (some r.slot) (some r.tag) place
    rw [queue]
    exact List.mem_append_right _ List.mem_cons_self
  · exact next_of_eq (State.takeReport_none none)
  · have dropped : s.takeReport = { s with stc := { s.stc with report := none } } := by
      unfold State.takeReport
      split
      · rename_i none
        rw [← none]
      · rcases state with off | fault
        · rw [if_neg (by simp [off, StationState.takesReport])]
          rfl
        · rw [if_neg (by simp [fault, StationState.takesReport])]
          rfl
    exact next_of_eq dropped

/-! ## The last dominant bit (R2) -/

theorem dominantEnd_eq_zero {bits : List Bool} : dominantEnd bits = 0 ↔ ∀ b ∈ bits, b = true := by
  induction bits with
  | nil => simp [dominantEnd]
  | cons b bits ih =>
    unfold dominantEnd
    split
    · rename_i zero
      cases b
      · simp
      · simpa using ih.mp zero
    · rename_i d later
      have some : ¬ ∀ b ∈ bits, b = true := fun all => by
        rw [ih.mpr all] at later
        cases later
      simp only [Nat.add_eq_zero_iff, OfNat.ofNat_ne_zero, and_false, List.mem_cons, forall_eq_or_imp, false_iff,
        not_and]
      exact fun _ => some

/-- The bits end in recession after the dominant one counted. -/
theorem dominantEnd_of_last {before after : List Bool} (recessive : ∀ b ∈ after, b = true) :
    dominantEnd (before ++ false :: after) = before.length + 1 := by
  induction before with
  | nil => simp [dominantEnd, dominantEnd_eq_zero.mpr recessive]
  | cons b before ih =>
    rw [List.cons_append, dominantEnd, ih]
    rfl

/-! ## The station's own marker and recognition that ends (R2, R5) -/

section
variable {s : State}

theorem State.endedBits_eq {matched : Nat} (least : 1 ≤ matched) (most : matched ≤ 15) :
    endedBits matched = (List.range (matched + 1)).map fun i => (0x16CF#16).getMsbD i != decide (i = matched) := by
  interval_cases matched <;> rfl

theorem State.reachPeriod_idle {idle : Bool} (link : s.inLink = true) (before : s.now ≤ s.period) :
    s.reachPeriod idle = if idle && (s.reach s.period).idleAt s.period then
      (s.reach s.period).beginMarker s.period else s.reach s.period := by
  simp [State.reachPeriod, link, before]
  rfl

theorem State.idleAt_iff {time : Nat} : s.idleAt time = true ↔ s.lif.activity = .idle ∧ s.lif.lastDominant + 20 ≤ time := by
  rw [State.idleAt, Bool.and_eq_true, beq_iff_eq, decide_eq_true_iff, Config.idleBits]

theorem State.reach_later {time : Nat} (before : s.now ≤ time) :
    s.reach time = { s with rtm := { s.rtm with elapsed := some time } } := by
  rw [State.reach, Nat.max_eq_right before]
  rfl

end

/-- Settles O20: by the branches of what the station does at P, at an idle line and at recognition's end. -/
theorem markersBegunAndAbandoned : Obligations.MarkersBegunAndAbandoned := by
  refine ⟨fun s start bits => ⟨fun recessive => ?_, fun before after split recessive => ?_⟩, fun s settled =>
    ⟨fun off => ?_, fun link => ⟨fun before idle line => ?_, fun idle before busy => ?_,
      fun time now period idle line inTime => ?_, fun time now busy => ?_,
      fun began matched n bits idle line watched least most now spelled read inTime => ?_, fun began matched blind => ?_⟩⟩⟩
  · exact if_pos (dominantEnd_eq_zero.mpr recessive)
  · rw [split, State.dominantAfter, dominantEnd_of_last recessive, if_neg (Nat.succ_ne_zero _), Nat.add_assoc]
  · refine ⟨fun idle => next_of_eq ?_, fun time => next_of_eq ?_, fun began matched => next_of_eq ?_⟩
    · rw [settled.finished]
      simp [State.reachPeriod, off]
    · rw [settled.finished]
      simp [State.lineIdleMarker, off]
    · rw [settled.finished]
      simp [State.recognitionEnded, off]
  · refine next_of_eq ?_
    have watches : (s.reach s.period).idleAt s.period = true := State.idleAt_iff.mpr ⟨idle, line⟩
    rw [settled.finished, State.reachPeriod_idle link before, watches, Bool.and_self, if_pos rfl,
      State.reach_later before]
    rfl
  · refine next_of_eq ?_
    have waits : ¬ (idle && (s.reach s.period).idleAt s.period) = true := by
      rw [Bool.and_eq_true, State.idleAt_iff]
      rintro ⟨rfl, quiet, free⟩
      rcases busy with clash | active | dominant
      · cases clash
      · exact active quiet
      · exact absurd free (Nat.not_le.mpr dominant)
    rw [settled.finished, State.reachPeriod_idle link before, if_neg waits, State.reach_later before]
  · refine next_of_eq ?_
    have free : s.idleAt time = true := State.idleAt_iff.mpr ⟨idle, line⟩
    rw [settled.finished, State.lineIdleMarker]
    simp only [Nat.max_eq_right now, link, period, decide_true, free, Bool.and_self, if_true]
    rw [State.timed_of_before (by omega), State.reach_later now]
    rfl
  · refine next_of_eq ?_
    have waits : ¬ (s.inLink && decide (s.period ≤ time) && s.idleAt time) = true := by
      simp only [Bool.and_eq_true, decide_eq_true_eq, State.idleAt_iff]
      rintro ⟨⟨-, reached⟩, quiet, free⟩
      rcases busy with early | active | dominant
      · exact absurd reached (Nat.not_le.mpr early)
      · exact active quiet
      · exact absurd free (Nat.not_le.mpr dominant)
    rw [settled.finished, State.lineIdleMarker]
    simp only [Nat.max_eq_right now]
    rw [if_neg waits]
  · refine next_of_eq ?_
    have free : s.idleAt began = true := State.idleAt_iff.mpr ⟨idle, line⟩
    have ended : endedBits matched = bits := (State.endedBits_eq least most).trans spelled.symm
    have length : bits.length = matched + 1 := by rw [spelled, List.length_map, List.length_range]
    have taken : s.bitsRead began bits = bits.take n := by
      rcases read with ⟨none, rfl⟩ | ⟨t, opens, after, within, rfl⟩
      · rw [State.bitsRead_all (fun t opens => by have := none t opens; omega), List.take_of_length_le length.le]
      · exact State.bitsRead_before opens after (by omega) (by omega) (by omega)
    have count : (bits.take n).length = n := by
      rw [List.length_take, length]
      rcases read with ⟨-, rfl⟩ | ⟨t, -, after, within, rfl⟩ <;> omega
    rw [settled.finished, State.recognitionEnded]
    simp only [link, State.watchesAt, free, watched, least, most, decide_true, Bool.and_self, if_true]
    rw [ended, State.lineRead_eq (by rw [taken, count]; omega), taken, count, Nat.max_eq_right (by omega)]
  · refine next_of_eq ?_
    have waits : ¬ (s.inLink && s.watchesAt began && decide (1 ≤ matched) && decide (matched ≤ 15)) = true := by
      simp only [Bool.and_eq_true, State.watchesAt, State.idleAt_iff, decide_eq_true_eq]
      rintro ⟨⟨⟨-, ⟨quiet, free⟩, watched⟩, -⟩, -⟩
      rcases blind with active | dominant | unwatched
      · exact active quiet
      · exact absurd free (Nat.not_le.mpr dominant)
      · exact absurd watched (Nat.not_le.mpr unwatched)
    rw [settled.finished, State.recognitionEnded, if_neg waits]

end Sys2Proof.Machine

/-! A round opens, heard markers are judged, and the slots of others (R2, R6 to R9, R14, R16). -/

namespace Sys2Proof.Machine

/-! ## A round opens (R6 to R8) -/

/-- The round record with the slots not opened SILENT (R3, R8). -/
theorem State.foldl_observe_silent (slots : List Slot) (s : State) : ∃ observations,
    slots.foldl (fun s i => if s.smap.observations[i].isNone then s.observe i .silent else s) s =
      s.setSmap { s.smap with observations } ∧
    ∀ i : Slot, observations[i] = if i ∈ slots ∧ s.smap.observations[i] = none then some .silent
      else s.smap.observations[i] := by
  induction slots generalizing s with
  | nil => exact ⟨s.smap.observations, rfl, by simp⟩
  | cons j slots ih =>
    obtain ⟨observations, after, each⟩ := ih (if s.smap.observations[j].isNone then s.observe j .silent else s)
    refine ⟨observations, after.trans ?_, fun i => (each i).trans ?_⟩
    · split <;> rfl
    · by_cases first : s.smap.observations[j] = none
      · have noted : s.smap.observations[j].isNone = true := by rw [first]; rfl
        rw [if_pos noted, State.observe, State.setSmap_smap]
        by_cases same : i = j
        · subst same
          simp [first]
        · have differ : j.val ≠ i.val := fun e => same (Fin.ext e).symm
          simp [same, Vector.getElem_set_ne, differ]
      · have noted : ¬ s.smap.observations[j].isNone = true := by simpa using first
        rw [if_neg noted]
        by_cases same : i = j
        · subst same
          simp [-Fin.getElem_fin, first]
        · simp [same]

theorem State.closeRecord_eq (s : State) : ∃ observations,
    s.closeRecord = s.setSmap { s.smap with observations } ∧
    ∀ i : Slot, observations[i] =
      if s.rtm.lastMarker.isSome = true ∧ i.val < s.slots ∧ s.smap.observations[i] = none then some .silent
      else s.smap.observations[i] := by
  unfold State.closeRecord
  by_cases marked : s.rtm.lastMarker.isSome = true
  · obtain ⟨observations, after, each⟩ := State.foldl_observe_silent s.usedSlots s
    refine ⟨observations, by rw [if_pos marked, after], fun i => ?_⟩
    simp only [each i, State.mem_usedSlots, marked, true_and]
  · refine ⟨s.smap.observations, by rw [if_neg marked]; rfl, fun i => ?_⟩
    simp [marked]

/-- Acceptance of a marker 24 bit times after its first bit opens a round (R7, R8). -/
theorem State.opensRound_acceptMarker {s : State} {began : Nat} (now : s.now = began + 24) (bits : BitVec 24) :
    s.opensRound (s.acceptMarker began bits) began := by
  obtain ⟨observations, closed, each⟩ := s.closeRecord_eq
  have accepted : s.acceptMarker began bits = (((s.setSmap { s.smap with observations }).setRtm
      { elapsed := some (s.now - began), lastMarker := some (s.rtm.lastMarker.getD 0 + began)
        counter := s.rtm.counter + 1, strike := s.rtm.strike && s.rtm.mismatchSeen, mismatchSeen := false }).setLif
      { s.lif with activity := .idle, opened := 0, lastDominant := dominantEnd (bitsOf bits), watchesFrom := 24 }).setBoundary
      { slotMap := true, claims := false, talk := false, listen := false, station := true } := by
    rw [State.acceptMarker, closed]
    rfl
  have elapsed : began + 24 - began = 24 := by omega
  rw [accepted, now, elapsed]
  exact ⟨rfl, rfl, rfl, rfl, each, rfl, rfl, rfl, rfl, rfl, rfl, rfl, rfl, rfl⟩

/-- Settles O21: the own marker's readback is accepted at its last bit. -/
theorem ownMarkerOpensARound : Obligations.OwnMarkerOpensARound := by
  intro s own settled link sending now inTime
  have accepted : s.finishBoundary.markerSent = (s.reach (own + 24)).acceptMarker own s.marker := by
    rw [settled.finished, State.markerSent, if_pos link, sending]
    dsimp only
    rw [State.timed_of_before (by omega)]
    rfl
  have reached : (s.reach (own + 24)).now = own + 24 := Nat.max_eq_right now
  exact ⟨_, next_of_eq accepted, State.opensRound_acceptMarker reached _⟩

/-! ## Heard markers (R2, R6, R7, R9) -/

theorem length_bitsOf {n : Nat} (x : BitVec n) : (bitsOf x).length = n := by
  rw [bitsOf, List.length_map, List.length_range]

/-- LIF has read a marker to its last bit (R2). -/
def State.markerRead (s : State) (began : Nat) (bits : BitVec 24) : State :=
  (s.reach (began + 24)).elementRead began (bitsOf bits)

section
variable {s : State} {began : Nat} {bits : BitVec 24}

theorem State.markerRead_eq (now : s.now ≤ began + 24) : s.markerRead began bits = { s with
    rtm := { s.rtm with elapsed := some (began + 24) }
    lif := { s.lif with
      activity := .idle, lastDominant := s.dominantAfter began (bitsOf bits), watchesFrom := began + 24 } } := by
  rw [State.markerRead, State.reach_later now, State.elementRead, length_bitsOf]
  rfl

/-- The marker that LIF recognizes, or reads through its own attempt, is judged at its last bit (R6, R7). -/
theorem State.heardMarker_judged {first : Nat} (link : s.inLink = true) (now : s.now ≤ began + 24)
    (inTime : began + 24 ≤ 2 * s.period)
    (heard : s.lif.activity = .marker began ∨ (s.lif.activity = .idle ∧ first = began ∧ s.lif.lastDominant + 20 ≤ began ∧
      s.lif.watchesFrom ≤ began ∧ bits.extractLsb' 8 16 = 0x16CF#16 ∧
      ∀ t, s.opensAt t → t < began ∨ began + 24 ≤ t)) :
    s.heardMarker first bits = (s.reach (began + 24)).judgeMarker began bits := by
  unfold State.heardMarker
  rw [if_pos link]
  rcases heard with own | ⟨idle, rfl, line, watched, pattern, none⟩
  · rw [own]
    dsimp only
    exact State.timed_of_before (by omega)
  · rw [idle]
    have recognized : (s.watchesAt first && markerPatternOf bits == Config.markerPattern && !s.opensWithin first 24) =
        true := by
      have within : ¬ s.opensWithin first 24 = true := by
        rw [State.opensWithin_iff]
        rintro ⟨t, opens, after, before⟩
        have := none t opens
        omega
      have code : markerPatternOf bits = Config.markerPattern := pattern
      simp [State.watchesAt, State.idleAt_iff.mpr ⟨idle, line⟩, watched, code, within]
    dsimp only
    rw [if_pos recognized]
    exact State.timed_of_before (by omega)

theorem State.judgeMarker_bad (bad : markerGood bits = false) :
    (s.reach (began + 24)).judgeMarker began bits = s.markerRead began bits := by
  simp [State.judgeMarker, bad, State.markerRead]

theorem State.judgeMarker_foreign (good : markerGood bits = true) (foreign : markerCodeOf bits ≠ s.shapeCode) :
    (s.reach (began + 24)).judgeMarker began bits = (s.markerRead began bits).shapeMismatch := by
  have other : markerCodeOf bits ≠ (s.markerRead began bits).shapeCode := foreign
  unfold State.judgeMarker
  simp only [good, Bool.not_true, Bool.false_eq_true, if_false]
  exact if_pos other

theorem State.judgeMarker_own (good : markerGood bits = true) (own : markerCodeOf bits = s.shapeCode) :
    (s.reach (began + 24)).judgeMarker began bits =
      if s.rtm.lastMarker.isNone ∨ s.period ≤ 2 * began then (s.markerRead began bits).acceptMarker began bits
      else (s.markerRead began bits).markerEarlyError := by
  have same : ¬ markerCodeOf bits ≠ (s.markerRead began bits).shapeCode := not_not_intro own
  unfold State.judgeMarker
  simp only [good, Bool.not_true, Bool.false_eq_true, if_false]
  exact if_neg same

/-- Bits that are no marker only keep the line from being idle (R2). -/
theorem State.heardMarker_unrecognized (link : s.inLink = true) (idle : s.lif.activity = .idle)
    (unfit : began < s.lif.lastDominant + 20 ∨ began < s.lif.watchesFrom ∨ bits.extractLsb' 8 16 ≠ 0x16CF#16 ∨
      ∃ t, s.opensAt t ∧ began ≤ t ∧ t < began + 24) :
    s.heardMarker began bits = s.lineRead began (bitsOf bits) := by
  have unrecognized : ¬ (s.watchesAt began && markerPatternOf bits == Config.markerPattern &&
      !s.opensWithin began 24) = true := by
    simp only [Bool.and_eq_true, State.watchesAt, State.idleAt_iff, decide_eq_true_eq, beq_iff_eq, Bool.not_eq_true']
    rintro ⟨⟨⟨⟨-, line⟩, watched⟩, pattern⟩, within⟩
    rcases unfit with busy | blind | other | opens
    · omega
    · omega
    · exact other pattern
    · rw [(s.opensWithin_iff began 24).mpr opens] at within
      cases within
  unfold State.heardMarker
  rw [if_pos link, idle]
  dsimp only
  rw [if_neg unrecognized]

end

/-- Settles O22: by the judgement of the bits read, and in FAULT by `State.entersFault_enterFault`. -/
theorem heardMarkersAreJudged : Obligations.HeardMarkersAreJudged := by
  refine ⟨fun s began n bits settled link idle unfit read now inTime => ?_, fun s began bits settled deaf => ?_,
    fun s first began bits settled link heard now inTime => ?_⟩
  · have length := length_bitsOf bits
    have taken : s.bitsRead began (bitsOf bits) = (bitsOf bits).take n := by
      rcases read with ⟨none, rfl⟩ | ⟨t, opens, after, before, later, rfl⟩
      · rw [State.bitsRead_all (fun t opens => by have := none t opens; omega), List.take_of_length_le length.le]
      · exact State.bitsRead_before opens after (by omega) later (by omega)
    have count : ((bitsOf bits).take n).length = n := by
      rw [List.length_take, length]
      rcases read with ⟨-, rfl⟩ | ⟨t, -, after, before, -, rfl⟩ <;> omega
    refine next_of_eq ?_
    rw [settled.finished, State.heardMarker_unrecognized link idle unfit,
      State.lineRead_eq (by rw [taken, count]; omega), taken, count]
  · have ignored : s.finishBoundary.heardMarker began bits = s := by
      rw [settled.finished, State.heardMarker]
      rcases deaf with off | ⟨active, other⟩
      · rw [if_neg (by simp [off])]
      · split
        · split
          · rename_i own marker
            exact absurd marker (other own)
          · rename_i idle
            exact absurd idle active
          all_goals rfl
        · rfl
    exact next_of_eq ignored
  · have judged : s.finishBoundary.heardMarker first bits = (s.reach (began + 24)).judgeMarker began bits := by
      rw [settled.finished, State.heardMarker_judged link now inTime heard]
    refine ⟨fun bad => ?_, fun good own late => ?_, fun good own marked early => ?_, fun good foreign fresh => ?_,
      fun good foreign struck => ?_⟩
    · exact next_of_eq (judged.trans ((State.judgeMarker_bad bad).trans (State.markerRead_eq now)))
    · have reached : (s.markerRead began bits).now = began + 24 := Nat.max_eq_right now
      have opens : s.rtm.lastMarker.isNone = true ∨ s.period ≤ 2 * began := by simpa using late
      refine ⟨(s.markerRead began bits).acceptMarker began bits, next_of_eq (judged.trans ?_),
        State.opensRound_acceptMarker reached bits⟩
      rw [State.judgeMarker_own good own, if_pos opens]
    · have closed : ¬ (s.rtm.lastMarker.isNone = true ∨ s.period ≤ 2 * began) := by
        rintro (none | late)
        · rw [Option.isNone_iff_eq_none.mp none] at marked
          cases marked
        · omega
      refine next_of_eq (judged.trans ?_)
      rw [State.judgeMarker_own good own, if_neg closed, State.markerRead_eq now, State.markerEarlyError,
        State.countError]
      exact if_pos link
    · refine next_of_eq (judged.trans ?_)
      have unstruck : ¬ (s.markerRead began bits).rtm.strike = true := by
        change ¬ s.rtm.strike = true
        simp [fresh]
      rw [State.judgeMarker_foreign good foreign, State.shapeMismatch]
      rw [if_neg (by exact unstruck), State.markerRead_eq now]
      rfl
    · have entered : (s.markerRead began bits).shapeMismatch = ((s.markerRead began bits).setFlags
          { s.hpt.flags with shapeMismatch := true }).enterFault .shape none none := if_pos struck
      generalize mismatched : (s.markerRead began bits).setFlags { s.hpt.flags with shapeMismatch := true } = r at entered
      have started : r.stc.state ≠ .off := mismatched ▸ State.inLink_ne_off link
      refine ⟨_, next_of_eq (judged.trans ((State.judgeMarker_foreign good foreign).trans entered)), ?_, ?_,
        fun place => ?_⟩
      · have stops := r.linkStopped_enterFault .shape none none
        have enters := r.entersFault_enterFault .shape none none
        subst mismatched
        exact enters.of_same rfl rfl rfl rfl rfl rfl stops rfl
      · refine (State.acts_enterFault started .shape none none).shapeMismatch ?_
        rw [← mismatched]
        rfl
      · have places : r.evq.queue.length < 32 := mismatched ▸ place
        obtain ⟨more, queue⟩ := r.enterFault_queue .shape none none places
        have stamp : r.stamp = s.stamp := by rw [← mismatched]; rfl
        rw [queue, stamp]
        exact List.mem_append_right _ List.mem_cons_self

/-! ## The slots in which the station does not send (R14, R16) -/

/-- Settles O28: no channel answers the slot, and the first bit says what it is. -/
theorem otherSlotsAreReceived : Obligations.OtherSlotsAreReceived := by
  intro s slot link marked idle opened used now silent
  have next : s.nextSlot = some slot := by
    have at' : s.lif.opened - 1 = slot.val := by omega
    have inRange : 1 ≤ s.lif.opened ∧ s.lif.opened ≤ 32 := by omega
    simp [State.nextSlot, inRange, at', used]
  have opens : s.mayOpen (slotTime slot.val) = true := by
    simp [State.mayOpen, link, marked, idle, slotTime, Config.slotsOpen, Config.slotBits, now]
  have nobody : s.sender slot = none := by
    unfold State.sender
    rcases silent with listening | unbound
    · rw [listening]
      rfl
    · split
      · exact List.find?_eq_none.mpr fun k _ => by simpa using unbound k
      · rfl
  have reached : ((s.setLif { s.lif with opened := s.lif.opened + 1 }).reach (slotTime slot.val)).sender slot = none :=
    nobody
  have opening : ∀ level, s.openSlot level =
      ((s.setLif { s.lif with opened := s.lif.opened + 1 }).reach (slotTime slot.val)).sampleSlot slot level := by
    intro level
    unfold State.openSlot
    rw [next]
    dsimp only
    rw [if_pos opens, reached]
  have time : max s.now (slotTime slot.val) = 160 + 320 * slot.val := Nat.max_eq_right now
  have later : max (160 + 320 * slot.val) (slotTime slot.val + 1) = 161 + 320 * slot.val := by
    simp only [slotTime, Config.slotsOpen, Config.slotBits]
    omega
  refine ⟨next_of_eq ((opening true).trans ?_), next_of_eq ((opening false).trans ?_)⟩
  · have sampled : ((s.setLif { s.lif with opened := s.lif.opened + 1 }).reach (slotTime slot.val)).now =
        160 + 320 * slot.val := time
    rw [State.sampleSlot, if_pos rfl, State.reach, sampled, later, opened]
    rfl
  · rw [State.sampleSlot, if_neg (by decide), State.reach]
    have sampled : (s.setLif { s.lif with opened := s.lif.opened + 1 }).now = s.now := rfl
    rw [sampled, time, opened]
    rfl

end Sys2Proof.Machine

/-! The Claim Engine: the walk at the claim window, the window's result, settling (R12, R13, R70 to R78). -/

namespace Sys2Proof.Machine

/-! ## Records and the fields they leave alone -/

section
variable (s : State) (r : EventRecord)

/-- A record is entered alike whatever the claim queue holds. -/
theorem State.post_setCle (c : Cle) : (s.setCle c).post r = (s.post r).setCle c := by
  unfold State.post
  rw [State.setCle_records, State.setCle_stamp]
  split
  · unfold State.enter
    rw [State.setCle_evq]
    split <;> rfl
  · rfl

theorem State.post_setStc {v : Stc} (start : v.start = s.stc.start) : (s.setStc v).post r = (s.post r).setStc v := by
  unfold State.post
  rw [State.records_congr (t := s) start]
  split
  · unfold State.enter
    rw [State.setStc_evq]
    split <;> rfl
  · rfl

end

/-! ## The walk (R70 to R72, R78) -/

/-- The first index of a list of all that meets a test. -/
theorem find?_finRange_eq_some {n : Nat} {p : Fin n → Bool} {i : Fin n} (h : p i = true) (before : ∀ j < i, p j = false) :
    (List.finRange n).find? p = some i := by
  rw [List.find?_eq_some_iff_getElem]
  refine ⟨h, i.val, by simp, by simp, fun j small => ?_⟩
  have below := before ⟨j, small.trans i.isLt⟩ small
  simpa using below

section
variable {s : State} {r : ClaimRequest}

theorem State.examine_of_passesOver (h : s.passesOver r) : s.examine r = .pass := by
  unfold State.examine
  rcases h with won | ⟨claim, waits⟩
  · simp [won]
  · have held : (s.stc.state == .leaving || s.stc.band == .degraded) = true := by simpa using waits
    rw [claim]
    simp [held]

theorem State.examine_of_maySend {slot : Slot} (h : s.maySend r slot) : s.examine r = .send slot := by
  obtain ⟨waiting, ⟨release, named⟩ | ⟨claim, joined, good, used, free, wanted⟩⟩ := h
  · simp [State.examine, waiting, release, named]
  · unfold State.examine
    simp only [waiting, claim, joined, good]
    rcases wanted with named | ⟨any, lowest⟩
    · rw [named]
      simp [-Fin.getElem_fin, free]
    · have found : s.lowestFree = some slot := find?_finRange_eq_some (by simp [-Fin.getElem_fin, used, free])
        fun j below => by simp [-Fin.getElem_fin, lowest j below]
      rw [any]
      simp [found]

theorem State.examine_of_endsUnsent {outcome : EventRecord} (h : s.endsUnsent r outcome) :
    s.examine r = .ends outcome := by
  obtain ⟨waiting, claim, joined, good, ⟨slot, named, taken, rfl⟩ | ⟨any, full, rfl⟩⟩ := h
  · unfold State.examine
    simp only [waiting, claim, joined, good]
    rw [named]
    simp [-Fin.getElem_fin, taken, ClaimRequest.outcome, event, ClaimCause.code]
  · have none : s.lowestFree = none := List.find?_eq_none.mpr fun j _ => by
      by_cases used : j.val < s.slots
      · simp [-Fin.getElem_fin, full j used]
      · simp [used]
    unfold State.examine
    simp only [waiting, claim, joined, good]
    rw [any]
    simp [none, ClaimRequest.outcome, event]

/-- The walk goes past the requests that it passes over or ends, and on to the rest. -/
theorem State.walk_append {walked : List (ClaimRequest × Option EventRecord)} {rest : List ClaimRequest}
    (h : ∀ p ∈ walked, match p.2 with
      | none => s.passesOver p.1
      | some outcome => s.endsUnsent p.1 outcome) :
    s.walk (walked.map Prod.fst ++ rest) =
      { queue := (walked.filter fun p => p.2.isNone).map Prod.fst ++ (s.walk rest).queue
        records := walked.filterMap Prod.snd ++ (s.walk rest).records
        sent := (s.walk rest).sent } := by
  induction walked with
  | nil => rfl
  | cons p walked ih =>
    obtain ⟨q, outcome⟩ := p
    have first := h (q, outcome) List.mem_cons_self
    have later := ih fun p mem => h p (List.mem_cons_of_mem _ mem)
    rw [List.map_cons, List.cons_append, State.walk]
    cases outcome with
    | none => rw [State.examine_of_passesOver first, later]; rfl
    | some outcome => rw [State.examine_of_endsUnsent first, later]; rfl

end

/-- LIF opens the claim window with the message chosen (R11, R70). -/
theorem State.openWindow_of_chosen {s u : State} {message : Option ClaimMessage} (link : s.inLink = true)
    (marked : s.rtm.lastMarker.isSome = true) (idle : s.lif.activity = .idle) (fresh : s.lif.opened = 0)
    (now : s.now ≤ 80) (chosen : s.chooseMessage = (u, message)) (rtm : u.rtm = s.rtm) (lif : u.lif = s.lif) :
    s.openWindow = { u with
      rtm := { s.rtm with elapsed := some 80 }
      lif := { s.lif with opened := 1, activity := .window message } } := by
  have opens : (s.mayOpen Config.windowOpens && s.lif.opened == 0) = true := by
    simp [State.mayOpen, link, marked, idle, fresh, Config.windowOpens, now]
  have time : max u.now 80 = 80 := by
    rw [State.now, rtm]
    exact Nat.max_eq_right now
  unfold State.openWindow
  rw [if_pos opens, chosen]
  dsimp only [State.reach, Config.windowOpens]
  rw [time, State.setRtm_lif, rtm, lif]
  rfl

/-- Settles O24: the walk of `State.walk_append`, with the message that it chooses. -/
theorem oldestSendableRequestIsSent : Obligations.OldestSendableRequestIsSent := by
  intro s settled marked idle fresh now
  have finished : ∀ {t}, s.openWindow = t → exec .claimWindowOpen s = .next t := fun {t} opened => by
    refine next_of_eq ?_
    rw [settled.finished, opened]
  refine ⟨fun listening => finished ?_, fun state walked post kept u queue examined kept' => ?_⟩
  · have link : s.inLink = true := by rw [State.inLink, listening]; rfl
    have none : s.chooseMessage = (s, none) := by simp [State.chooseMessage, listening]
    exact State.openWindow_of_chosen link marked idle fresh now none rfl rfl
  · have link : s.inLink = true := by rcases state with joined | leaving <;> simp [State.inLink, *, StationState.inLink]
    have sends : (s.stc.state == .joined || s.stc.state == .leaving) = true := by simpa using state
    have choice : s.chooseMessage = ((s.setCle {
        queue := (s.walk s.cle.queue).queue
        onLine := (s.walk s.cle.queue).sent.map ClaimRequest.channel
        lineEnds := none }).postAll (s.walk s.cle.queue).records, (s.walk s.cle.queue).sent.map s.messageFor) :=
      if_pos sends
    have walk := State.walk_append (rest := post) examined
    rw [queue, walk] at choice
    refine ⟨fun r rest slot split may state => finished ?_, fun none state => finished ?_⟩
    · have stops : s.walk (r :: rest) =
          ⟨{ r with sentSlot := some slot } :: rest, [], some { r with sentSlot := some slot }⟩ := by
        rw [State.walk, State.examine_of_maySend may]
      rw [split, stops] at choice
      have chosen : s.chooseMessage = (u, some { kind := r.kind, slot, station := s.selfId, tag := r.tag }) := by
        rw [choice, state, kept', List.append_nil]
        rfl
      exact State.openWindow_of_chosen link marked idle fresh now chosen (by rw [state, State.postAll_rtm])
        (by rw [state, State.postAll_lif])
    · rw [none] at choice
      have chosen : s.chooseMessage = (u, Option.none) := by
        rw [choice, state, kept']
        simp [State.walk, State.setCle]
      exact State.openWindow_of_chosen link marked idle fresh now chosen (by rw [state, State.postAll_rtm])
        (by rw [state, State.postAll_lif])

/-! ## The window's result (R12, R13, R73) -/

section
variable {s : State} {k : TalkId} {r : ClaimRequest}

theorem State.windowResult_unsent (unsent : s.cle.onLine = none) (part : WindowPart) : s.windowResult part = s := by
  simp [State.windowResult, unsent]

theorem State.windowResult_won (onLine : s.cle.onLine = some k) (request : s.cle.requestOf k = some r) :
    s.windowResult .won = s.setCle {
      queue := s.cle.queue.map fun q => if q.channel == k then { q with phase := .sentWon } else q
      onLine := none, lineEnds := none } := by
  have same : (s.setCle { s.cle with onLine := none, lineEnds := none }).cle.requestOf k = some r := request
  unfold State.windowResult
  rw [onLine]
  dsimp only
  rw [same]
  rfl

theorem State.windowResult_lost (onLine : s.cle.onLine = some k) (request : s.cle.requestOf k = some r) :
    s.windowResult .lost =
      (s.setCle { s.cle with onLine := none, lineEnds := none }).lostRequest k r s.cle.lineEnds := by
  have same : (s.setCle { s.cle with onLine := none, lineEnds := none }).cle.requestOf k = some r := request
  unfold State.windowResult
  rw [onLine]
  dsimp only
  rw [same]

end

/-- LIF has read a claim window to its last bit (R12, R13). -/
def State.claimWindowRead (s : State) (line : BitVec 28) : State := { s with
  rtm := { s.rtm with elapsed := some 108 }
  lif := { s.lif with activity := .idle, lastDominant := s.dominantAfter 80 (bitsOf line), watchesFrom := 108 } }

/-- A window that is not empty is read to its last bit, and its result goes to SMAP and CLE (R13, R20). -/
theorem State.endWindow_of_read {s : State} {sent : Option ClaimMessage} {line : BitVec 28}
    {message : Option ClaimMessage} {part : WindowPart} {badCheck : Bool} (window : s.lif.activity = .window sent)
    (full : windowEmpty sent line = false) (now : s.now ≤ 108)
    (reading : readWindow s.slots sent line = { message, part, badCheck }) :
    s.endWindow line = State.windowResult
      (if badCheck then ((s.claimWindowRead line).setSmap { s.smap with message, part }).claimCheckError
        else (s.claimWindowRead line).setSmap { s.smap with message, part }) part := by
  have bits : (s.elementRead 80 (bitsOf line)).reach 108 = s.claimWindowRead line := by
    rw [State.reach_later (by exact now), State.elementRead, length_bitsOf]
    rfl
  unfold State.endWindow
  rw [window]
  dsimp only
  rw [reading, full]
  simp only [Bool.false_eq_true, if_false]
  change State.windowResult (if badCheck then (((s.elementRead 80 (bitsOf line)).reach 108).setSmap _).claimCheckError
    else ((s.elementRead 80 (bitsOf line)).reach 108).setSmap _) part = _
  rw [bits]
  rfl

/-- What is received in a window that the station has not won (R13). -/
theorem readWindow_received {slots : Nat} {sent : Option ClaimMessage} {line : BitVec 28} {part : WindowPart}
    (received : (∃ m, sent = some m ∧ m.bits ≠ line.extractLsb' 0 27 ∧ part = .lost) ∨
      (sent = none ∧ line.getMsbD 0 = false ∧ part = .notSent)) :
    readWindow slots sent line = {
      message := if messageGood (line.extractLsb' 0 27) = true then handedMessage slots (messageOf (line.extractLsb' 0 27))
        else none
      part, badCheck := !messageGood (line.extractLsb' 0 27) } := by
  rcases received with ⟨m, rfl, differ, rfl⟩ | ⟨rfl, dominant, rfl⟩
  · unfold readWindow
    dsimp only
    rw [if_neg differ]
    cases messageGood (line.extractLsb' 0 27) <;> rfl
  · unfold readWindow
    dsimp only
    rw [dominant]
    cases messageGood (line.extractLsb' 0 27) <;> rfl

/-- CLAIM_CHECK is counted, and in a link state goes to the window's errors (R18, R35). -/
theorem State.claimCheckError_eq (s : State) : s.claimCheckError = { s with
    stc := if s.inLink = false then s.stc else { s.stc with windowErrors := min 255 (s.stc.windowErrors + 1) }
    lif := { s.lif with claimCheck := min 65535 (s.lif.claimCheck + 1) } } := by
  unfold State.claimCheckError State.countError
  by_cases link : s.inLink = true
  · rw [if_pos (by exact link), if_neg (by simp [link])]
    rfl
  · rw [if_neg (by exact link), if_pos (by simpa using link)]
    rfl

/-- What a lost message leaves of its request (R73, R79, R80). -/
theorem State.lostRequest_eq (s : State) (k : TalkId) (r : ClaimRequest) (ends : Option ClaimCause) :
    s.lostRequest k r ends = match ends with
      | some cause => s.endRequest k (r.withdrawn cause)
      | none =>
        if r.attempts + 1 < s.retryLimit then s.updateRequest k fun q => { q with attempts := q.attempts + 1 }
        else s.endRequest k (match r.kind with
          | .claim => r.outcome .expired r.sentSlot none (r.attempts + 1)
          | .release => r.outcome .releaseExpired r.slot none (r.attempts + 1)) := by
  cases ends with
  | some cause => rfl
  | none =>
    unfold State.lostRequest
    by_cases more : r.attempts + 1 < s.retryLimit
    · simp [more, Nat.not_le.mpr more]
    · simp only [more, Nat.not_lt.mp more, if_true, if_false]
      cases r.kind <;> rfl

theorem handedMessage_eq (slots : Nat) (q : ClaimMessage) : handedMessage slots q =
    if q.slot.val < slots ∧ ¬ (q.kind = .claim ∧ q.tag = 0) then some q else none := by
  unfold handedMessage
  by_cases handed : q.slot.val < slots ∧ ¬ (q.kind = .claim ∧ q.tag = 0)
  · rw [if_pos handed, if_neg]
    obtain ⟨used, sent⟩ := handed
    simpa [used] using sent
  · rw [if_neg handed, if_pos]
    by_cases used : q.slot.val < slots
    · have claim : q.kind = .claim ∧ q.tag = 0 := by simpa [used] using handed
      simp [claim]
    · simp [Nat.not_lt.mp used]

/-- Settles O25: the reading of the readback, and what the Claim Engine makes of it. -/
theorem windowResultReachesTheRequest : Obligations.WindowResultReachesTheRequest := by
  intro s m line k r window onLine request now
  refine ⟨fun matched => ?_, fun differ u left => ?_, handedMessage_eq s.slots⟩
  · have reading : readWindow s.slots (some m) line = { message := some m, part := .won, badCheck := false } :=
      if_pos matched.symm
    refine ⟨_, next_of_eq (State.endWindow_of_read window rfl now reading), ?_⟩
    simp only [Bool.false_eq_true, if_false]
    rw [State.windowResult_won (k := k) (r := r) (by exact onLine) (by exact request)]
    rfl
  · have reading := readWindow_received (slots := s.slots) (.inl ⟨m, rfl, Ne.symm differ, rfl⟩)
    have reported : (if (!messageGood (line.extractLsb' 0 27)) = true then ((s.claimWindowRead line).setSmap { s.smap with
          message := if messageGood (line.extractLsb' 0 27) = true then
            handedMessage s.slots (messageOf (line.extractLsb' 0 27)) else none
          part := .lost }).claimCheckError
        else (s.claimWindowRead line).setSmap { s.smap with
          message := if messageGood (line.extractLsb' 0 27) = true then
            handedMessage s.slots (messageOf (line.extractLsb' 0 27)) else none
          part := .lost }) = u := by
      rw [left]
      by_cases good : messageGood (line.extractLsb' 0 27) = true
      · simp only [good, Bool.not_true, Bool.false_eq_true, if_true, if_false, true_or]
        rfl
      · have bad : messageGood (line.extractLsb' 0 27) = false := by simpa using good
        simp only [bad, Bool.not_false, Bool.false_eq_true, if_true, if_false, false_or]
        exact State.claimCheckError_eq _
    have cle : u.cle = s.cle := by rw [left]
    have limit : u.retryLimit = s.retryLimit := by
      have start : u.stc.start = s.stc.start := by
        rw [left]
        dsimp only
        split <;> rfl
      rw [State.retryLimit, State.retryLimit, start]
    have lost : s.endWindow line =
        (u.setCle { s.cle with onLine := none, lineEnds := none }).lostRequest k r s.cle.lineEnds := by
      rw [State.endWindow_of_read window rfl now reading, reported,
        State.windowResult_lost (by rw [cle, onLine]) (by rw [cle, request]), cle]
    refine ⟨fun stays more => next_of_eq ?_, fun cause ends => next_of_eq ?_, fun stays last => next_of_eq ?_⟩
    · rw [lost, State.lostRequest_eq, stays]
      dsimp only
      rw [if_pos (by change _ < u.retryLimit; rw [limit]; exact more)]
      rfl
    · rw [lost, State.lostRequest_eq, ends]
      rfl
    · rw [lost, State.lostRequest_eq, stays]
      dsimp only
      rw [if_neg (by change ¬ _ < u.retryLimit; rw [limit]; omega)]
      cases r.kind <;> rfl

/-- Settles O26: an empty window is known at its first bit, any other at its last. -/
theorem windowReadWithoutSending : Obligations.WindowReadWithoutSending := by
  intro s line window unsent
  have first : line.getMsbD 0 = line.getLsbD 27 := by simp [BitVec.getMsbD_eq_getLsbD]
  refine ⟨fun recessive now => next_of_eq ?_, fun dominant now good => ?_, fun dominant now bad link => ?_⟩
  · have empty : windowEmpty none line = true := by rw [windowEmpty, first, recessive, Option.isNone_none, Bool.and_true]
    have reading : readWindow s.slots none line = { message := none, part := .notSent, badCheck := false } :=
      if_pos (first.trans recessive)
    have time : max s.now 81 = 81 := Nat.max_eq_right now
    unfold State.endWindow
    rw [window]
    dsimp only
    rw [reading, empty]
    simp only [if_true, Bool.false_eq_true, if_false]
    rw [State.windowResult_unsent (by exact unsent), State.reach]
    change State.setSmap (State.setRtm _ { s.rtm with elapsed := some (max s.now 81) }) _ = _
    rw [time]
    rfl
  · have full : windowEmpty none line = false := by rw [windowEmpty, first, dominant, Option.isNone_none, Bool.and_false]
    have reading := readWindow_received (slots := s.slots) (.inr ⟨rfl, first.trans dominant, rfl⟩)
    rw [good] at reading
    refine ⟨_, next_of_eq (State.endWindow_of_read window full now reading), ?_⟩
    simp only [Bool.not_true, Bool.false_eq_true, if_false, if_true]
    rw [State.windowResult_unsent (by exact unsent)]
    rfl
  · have full : windowEmpty none line = false := by rw [windowEmpty, first, dominant, Option.isNone_none, Bool.and_false]
    have reading := readWindow_received (slots := s.slots) (.inr ⟨rfl, first.trans dominant, rfl⟩)
    rw [bad] at reading
    refine ⟨_, next_of_eq (State.endWindow_of_read window full now reading), ?_⟩
    simp only [Bool.not_false, Bool.false_eq_true, if_false, if_true]
    rw [State.claimCheckError_eq, if_neg (by change ¬ s.inLink = false; simp [link]),
      State.windowResult_unsent (by exact unsent)]
    rfl

end Sys2Proof.Machine

/-! Requests that leave the claim queue together: settling, and LEAVE in JOINED (R28, R29, R74 to R77, R80). -/

namespace Sys2Proof.Machine

/-! ## Requests that leave the queue in its order (R77, R80) -/

/-- The requests of a queue of distinct channels that are not the first of those still to be seen. -/
theorem filter_channel_of_distinct {front rest : List ClaimRequest} {r : ClaimRequest}
    (distinct : ((front ++ r :: rest).map ClaimRequest.channel).Nodup) :
    ((front ++ r :: rest).filter fun q => q.channel != r.channel) = front ++ rest := by
  rw [List.map_append, List.map_cons, List.nodup_append] at distinct
  obtain ⟨-, last, apart⟩ := distinct
  obtain ⟨fresh, -⟩ := List.nodup_cons.mp last
  have kept : ∀ (l : List ClaimRequest), (∀ q ∈ l, q.channel ≠ r.channel) →
      (l.filter fun q => q.channel != r.channel) = l := fun l other =>
    List.filter_eq_self.mpr fun q mem => by simpa using other q mem
  rw [List.filter_append, List.filter_cons, kept front, kept rest]
  · simp
  · exact fun q mem same => fresh (List.mem_map.mpr ⟨q, mem, same⟩)
  · exact fun q mem same => apart _ (List.mem_map_of_mem mem) _ List.mem_cons_self same

/-- A walk over the queue that ends the requests of `p`, each with its record, and may move the cause for the message on
the line at the others. -/
theorem State.foldl_endRequest {f : State → ClaimRequest → State} {p : ClaimRequest → Bool}
    {o : ClaimRequest → EventRecord} {g : ClaimRequest → Option ClaimCause → Option ClaimCause} {s : State}
    (step : ∀ t : State, t.smap = s.smap → t.talk = s.talk → t.cle.onLine = s.cle.onLine → ∀ r, f t r =
      if p r then t.endRequest r.channel (o r) else t.setCle { t.cle with lineEnds := g r t.cle.lineEnds })
    (rest front : List ClaimRequest) (t : State) (smap : t.smap = s.smap) (talk : t.talk = s.talk)
    (onLine : t.cle.onLine = s.cle.onLine) (queue : t.cle.queue = front ++ rest)
    (distinct : (t.cle.queue.map ClaimRequest.channel).Nodup) :
    rest.foldl f t = (t.setCle {
      queue := front ++ rest.filter fun r => !p r
      onLine := s.cle.onLine
      lineEnds := rest.foldl (fun e r => if p r then e else g r e) t.cle.lineEnds }).postAll ((rest.filter p).map o) := by
  induction rest generalizing front t with
  | nil =>
    rw [List.foldl_nil, List.filter_nil, ← queue, ← onLine]
    rfl
  | cons r rest ih =>
    rw [List.foldl_cons, step t smap talk onLine r]
    by_cases ends : p r = true
    · have left : (t.endRequest r.channel (o r)).cle.queue = front ++ rest := by
        simp only [State.endRequest, State.post_cle, State.setCle_cle, queue]
        exact filter_channel_of_distinct (queue ▸ distinct)
      rw [if_pos ends, ih front (t.endRequest r.channel (o r)) (by simpa [State.endRequest] using smap)
        (by simpa [State.endRequest] using talk) (by simpa [State.endRequest] using onLine) left ?_]
      · rw [List.foldl_cons, if_pos ends, List.filter_cons_of_neg (by simp [ends]), List.filter_cons_of_pos ends,
          List.map_cons, State.postAll_cons, State.post_setCle]
        simp only [State.endRequest, State.post_setCle]
        rfl
      · rw [left]
        refine distinct.sublist (List.Sublist.map _ ?_)
        rw [queue]
        exact List.Sublist.append_left (List.sublist_cons_self _ _) _
    · rw [if_neg ends, ih (front ++ [r]) (t.setCle { t.cle with lineEnds := g r t.cle.lineEnds }) smap talk onLine
        (by simp [queue]) distinct]
      rw [List.foldl_cons, if_neg ends, List.filter_cons_of_pos (by simp [ends]), List.filter_cons_of_neg (by simp [ends]),
        List.append_assoc]
      rfl

/-! ## Settling (R74 to R77) -/

section
variable {s : State} {r : ClaimRequest}

theorem State.settledOutcome_of_settlesWon {outcome : EventRecord} (h : s.settlesWon r outcome) :
    s.settledOutcome r = outcome := by
  obtain ⟨-, kind, slot, station, detail, rfl, ⟨release, rfl, rfl, rfl, rfl⟩ | ⟨claim, i, sent, rfl, entry⟩⟩ := h
  · simp [State.settledOutcome, release, ClaimRequest.outcome, event]
  · unfold State.settledOutcome
    rw [claim]
    dsimp only
    rw [sent]
    dsimp only
    cases seen : s.smap.entries[i] with
    | own tag rival mismatches =>
      simp only [seen] at entry
      rcases entry with ⟨bound, rfl, rfl, rfl⟩ | ⟨unbound, rfl, rfl, rfl⟩
      · dsimp only
        rw [if_pos (by simpa using bound)]
        rfl
      · dsimp only
        rw [if_neg (by simpa using unbound)]
        rfl
    | quarantine remaining =>
      simp only [seen] at entry
      obtain ⟨named, rfl, rfl, rfl⟩ := entry
      have slot : (r.slot.orElse fun _ => r.sentSlot) = some i := by
        rcases named with any | same
        · rw [any, sent]
          rfl
        · rw [same]
          rfl
      simp only [ClaimRequest.withdrawn, slot]
      rfl
    | peer owner tag silent rival =>
      simp only [seen] at entry
      obtain ⟨rfl, rfl, rfl⟩ := entry
      rfl
    | free =>
      simp only [seen] at entry
      obtain ⟨rfl, rfl, rfl⟩ := entry
      rfl

/-- A WAITING RELEASE whose channel is no longer bound to its slot (R76). -/
def State.losesRelease (s : State) (r : ClaimRequest) : Bool :=
  r.kind == .release && r.phase == .waiting && s.talk[r.channel].bound != r.slot

/-- A WAITING request that settling withdraws is a RELEASE of a channel that has lost its slot, with this record (R76). -/
theorem State.settlesWaiting.withdraws {outcome : Option EventRecord} (h : s.settlesWaiting r outcome) :
    (outcome = none ∧ s.losesRelease r = false) ∨
    (outcome = some (r.withdrawn .slotLost) ∧ s.losesRelease r = true) := by
  obtain ⟨waiting, ⟨release, lost, slot, named, rfl⟩ | ⟨stays, rfl⟩⟩ := h
  · refine .inr ⟨?_, ?_⟩
    · simp [ClaimRequest.withdrawn, ClaimRequest.outcome, event, ClaimCause.code, named]
    · simpa [-Fin.getElem_fin, State.losesRelease, release, waiting] using lost
  · refine .inl ⟨rfl, ?_⟩
    rcases stays with claim | bound
    · rw [State.losesRelease, claim]
      rfl
    · simp [-Fin.getElem_fin, State.losesRelease, bound]

end

theorem State.postAll_setCle (s : State) (c : Cle) (rs : List EventRecord) :
    (s.setCle c).postAll rs = (s.postAll rs).setCle c := by
  induction rs generalizing s with
  | nil => rfl
  | cons r rs ih => rw [State.postAll_cons, State.post_setCle, ih, State.postAll_cons]

/-- The Claim Engine's work on the settled notice, in one step (R77). -/
theorem State.claimWork_eq {s : State} (waits : s.boundary.claims = true) (distinct : s.claimsDistinct) :
    s.claimWork = ((s.setBoundary { s.boundary with claims := false }).setCle {
        queue := (s.cle.queue.filter fun r => !(r.phase == .sentWon)).filter fun r => !s.losesRelease r
        onLine := s.cle.onLine
        lineEnds := s.cle.lineEnds }).postAll
      ((s.cle.queue.filter fun r => r.phase == .sentWon).map s.settledOutcome ++
        ((s.cle.queue.filter fun r => !(r.phase == .sentWon)).filter s.losesRelease).map
          fun r => r.withdrawn .slotLost) := by
  have won := State.foldl_endRequest (f := State.settleWon) (p := fun r => r.phase == .sentWon) (o := s.settledOutcome)
    (g := fun _ e => e) (s := s.setBoundary { s.boundary with claims := false })
    (fun t smap talk _ r => by
      have outcome : t.settledOutcome r = s.settledOutcome r := by
        unfold State.settledOutcome
        rw [smap, talk]
        rfl
      rw [State.settleWon, outcome]
      rfl)
    s.cle.queue [] (s.setBoundary { s.boundary with claims := false }) rfl rfl rfl rfl distinct
  unfold State.claimWork
  rw [if_pos waits]
  dsimp only
  rw [State.setBoundary_cle, won]
  simp only [ite_self, List.foldl_fixed, List.nil_append, State.postAll_cle, State.setCle_cle, State.setBoundary_cle]
  generalize hb : s.setBoundary { s.boundary with claims := false } = b
  have talk : b.talk = s.talk := by rw [← hb]; rfl
  generalize ha : (b.setCle _).postAll _ = a
  have released := State.foldl_endRequest (f := State.settleRelease) (p := s.losesRelease)
    (o := fun r => r.withdrawn .slotLost) (g := fun _ e => e) (s := a)
    (fun t _ same _ r => by
      have bound : t.talk = s.talk := by rw [same, ← ha, State.postAll_talk, State.setCle_talk, talk]
      rw [State.settleRelease, bound]
      rfl)
    (s.cle.queue.filter fun r => !(r.phase == .sentWon)) [] a rfl rfl rfl
    (by rw [← ha, State.postAll_cle]; rfl)
    (by
      rw [← ha, State.postAll_cle]
      exact distinct.sublist (List.Sublist.map _ List.filter_sublist))
  rw [released, ← ha]
  simp only [ite_self, List.foldl_fixed, List.nil_append, State.postAll_cle, State.setCle_cle]
  rw [← State.postAll_setCle, ← State.postAll_append]
  rfl

/-- The queue and the records that settling leaves, told request by request. -/
theorem State.settled_lists {s : State} {settled : List (ClaimRequest × Option EventRecord)}
    (h : ∀ p ∈ settled, (∃ outcome, p.2 = some outcome ∧ s.settlesWon p.1 outcome) ∨ s.settlesWaiting p.1 p.2) :
    (((settled.map Prod.fst).filter fun r => !(r.phase == .sentWon)).filter fun r => !s.losesRelease r) =
      (settled.filter fun p => p.2.isNone).map Prod.fst ∧
    (((settled.map Prod.fst).filter fun r => r.phase == .sentWon).map s.settledOutcome) =
      (settled.filter fun p => p.1.phase == .sentWon).filterMap Prod.snd ∧
    ((((settled.map Prod.fst).filter fun r => !(r.phase == .sentWon)).filter s.losesRelease).map
      fun r => r.withdrawn .slotLost) = (settled.filter fun p => p.1.phase == .waiting).filterMap Prod.snd := by
  induction settled with
  | nil => exact ⟨rfl, rfl, rfl⟩
  | cons p settled ih =>
    obtain ⟨r, outcome⟩ := p
    obtain ⟨queue, won, withdrawn⟩ := ih fun p mem => h p (List.mem_cons_of_mem _ mem)
    have first : (∃ record, outcome = some record ∧ s.settlesWon r record) ∨ s.settlesWaiting r outcome :=
      h (r, outcome) List.mem_cons_self
    rcases first with ⟨record, rfl, settles⟩ | settles
    · have sent : r.phase = .sentWon := settles.1
      have ended := State.settledOutcome_of_settlesWon settles
      exact ⟨by simpa [sent] using queue, by simpa [sent, ended] using won, by simpa [sent] using withdrawn⟩
    · have waiting : r.phase = .waiting := settles.1
      rcases settles.withdraws with ⟨rfl, stays⟩ | ⟨rfl, loses⟩
      · exact ⟨by simpa [waiting, stays] using queue, by simpa [waiting] using won,
          by simpa [waiting, stays] using withdrawn⟩
      · exact ⟨by simpa [waiting, loses] using queue, by simpa [waiting] using won,
          by simpa [waiting, loses] using withdrawn⟩

/-- Settles O38: the SENT-WON requests end in queue order, then the withdrawn ones. -/
theorem claimSettleDecidesTheOutcome : Obligations.ClaimSettleDecidesTheOutcome := by
  refine fun s => ⟨fun idle => next_of_eq (State.claimWork_idle idle), fun waits distinct settled queue outcomes => ?_⟩
  obtain ⟨kept, won, withdrawn⟩ := State.settled_lists outcomes
  refine next_of_eq ?_
  rw [State.claimWork_eq waits distinct, queue, kept, won, withdrawn]
  rfl

end Sys2Proof.Machine

/-! The releases of a leave, and LEAVE in JOINED (R28, R29, R80). -/

namespace Sys2Proof.Machine

/-! ## The releases of a leave (R28, R29) -/

/-- The RELEASE that a leave queues for a bound channel (R66). -/
def State.leaveRequestFor (s : State) (k : TalkId) : ClaimRequest :=
  .new .release k s.talk[k].bound (s.talk[k].tag.getD 0)

theorem Cle.holds_iff {c : Cle} {k : TalkId} : c.holds k = true ↔ ∃ r ∈ c.queue, r.channel = k := by
  simp [Cle.holds, Cle.requestOf]

theorem Cle.holds_append {c : Cle} {k : TalkId} {more : List ClaimRequest} :
    ({ c with queue := c.queue ++ more } : Cle).holds k = (c.holds k || more.any fun r => r.channel == k) := by
  rw [Bool.eq_iff_iff, Bool.or_eq_true, Cle.holds_iff, Cle.holds_iff]
  simp [or_and_right, exists_or]

/-- What the releases of a leave for some channels leave: only the claim queue, which grows, and the leave marks change,
and every bound one of these channels without a request or a mark has both. -/
structure State.Releases (ids : List TalkId) (s t : State) : Prop where
  frame : t = (s.setCle { s.cle with queue := t.cle.queue }).setStc { s.stc with leaveMarks := t.stc.leaveMarks }
  grows : ∃ more : List ClaimRequest, t.cle.queue = s.cle.queue ++ more ∧
    ∀ r ∈ more, r.kind = .release ∧ r.channel ∈ ids
  marks : ∀ k : TalkId, s.stc.leaveMarks[k] = true → t.stc.leaveMarks[k] = true
  others : ∀ k : TalkId, k ∉ ids → t.stc.leaveMarks[k] = s.stc.leaveMarks[k]
  joins : ∀ k ∈ ids, s.talk[k].bound.isSome = true → s.cle.holds k = false → s.stc.leaveMarks[k] = false →
    s.leaveRequestFor k ∈ t.cle.queue ∧ t.stc.leaveMarks[k] = true

section
variable {s : State}

theorem State.releases_leaveRelease (j : TalkId) : s.Releases [j] (s.leaveRelease j) := by
  unfold State.leaveRelease
  by_cases calls : (s.talk[j].bound.isSome && !s.cle.holds j && !s.stc.leaveMarks[j]) = true
  · rw [if_pos calls]
    refine ⟨rfl, ⟨[s.leaveRequestFor j], rfl, by simp [State.leaveRequestFor, ClaimRequest.new]⟩, fun k marked => ?_,
      fun k other => ?_, fun k mem _ _ _ => ?_⟩
    · change (s.stc.leaveMarks.set j true)[k] = true
      by_cases same : j.val = k.val
      · simp [same]
      · simpa [Vector.getElem_set_ne, same] using marked
    · have differ : j.val ≠ k.val := fun e => other (List.mem_singleton.mpr (Fin.ext e).symm)
      change (s.stc.leaveMarks.set j true)[k] = _
      simp [Vector.getElem_set_ne, differ]
    · obtain rfl := List.mem_singleton.mp mem
      refine ⟨List.mem_append_right _ (List.mem_singleton.mpr rfl), ?_⟩
      change (s.stc.leaveMarks.set k true)[k] = true
      simp
  · rw [if_neg calls]
    refine ⟨rfl, ⟨[], by simp, by simp⟩, fun _ => id, fun _ _ => rfl, fun k mem bound free unmarked => ?_⟩
    obtain rfl := List.mem_singleton.mp mem
    exact absurd (by simp [-Fin.getElem_fin, bound, free, unmarked]) calls

theorem State.Releases.cons {j : TalkId} {ids : List TalkId} {t u : State} (h : s.Releases [j] t) (g : t.Releases ids u)
    (fresh : j ∉ ids) : s.Releases (j :: ids) u := by
  obtain ⟨frame, ⟨more, queue, own⟩, marks, others, joins⟩ := h
  obtain ⟨frame', ⟨more', queue', own'⟩, marks', others', joins'⟩ := g
  have talk : t.talk = s.talk := by rw [frame]; rfl
  refine ⟨?_, ⟨more ++ more', ?_, ?_⟩, fun k => marks' k ∘ marks k, fun k other => ?_, fun k mem bound free unmarked => ?_⟩
  · rw [frame', frame]
    rfl
  · rw [queue', queue, List.append_assoc]
  · intro r mem
    rcases List.mem_append.mp mem with first | later
    · obtain ⟨release, channel⟩ := own r first
      exact ⟨release, List.mem_cons.mpr (.inl (List.mem_singleton.mp channel))⟩
    · obtain ⟨release, channel⟩ := own' r later
      exact ⟨release, List.mem_cons_of_mem _ channel⟩
  · rw [List.mem_cons, not_or] at other
    rw [others' k other.2, others k (by simpa using other.1)]
  · have request : t.leaveRequestFor k = s.leaveRequestFor k := by rw [State.leaveRequestFor, talk]; rfl
    rcases List.mem_cons.mp mem with rfl | later
    · obtain ⟨joined, marked⟩ := joins k (List.mem_singleton.mpr rfl) bound free unmarked
      exact ⟨queue' ▸ List.mem_append_left _ joined, marks' k marked⟩
    · have differ : k ≠ j := fun same => fresh (same ▸ later)
      have still : t.cle.holds k = false := by
        rw [← Bool.not_eq_true, Cle.holds_iff, queue] at *
        rintro ⟨r, at', channel⟩
        rcases List.mem_append.mp at' with before | new
        · exact free ⟨r, before, channel⟩
        · exact differ (channel ▸ List.mem_singleton.mp (own r new).2)
      have unmarked' : t.stc.leaveMarks[k] = false := (others k (by simpa using differ)).trans unmarked
      exact request ▸ joins' k later (by rw [talk]; exact bound) still unmarked'

theorem State.releases_foldl (ids : List TalkId) (distinct : ids.Nodup) (s : State) :
    s.Releases ids (ids.foldl State.leaveRelease s) := by
  induction ids generalizing s with
  | nil => exact ⟨rfl, ⟨[], by simp, by simp⟩, fun _ => id, fun _ _ => rfl, nofun⟩
  | cons j ids ih =>
    obtain ⟨fresh, distinct⟩ := List.nodup_cons.mp distinct
    exact (State.releases_leaveRelease j).cons (ih distinct _) fresh

/-- The leave releases in channel order (R28, R29). -/
theorem State.releases_leaveReleases (s : State) : s.Releases (List.finRange 8) s.leaveReleases :=
  State.releases_foldl _ (List.nodup_finRange 8) s

theorem State.Releases.holds {ids : List TalkId} {t : State} (h : s.Releases ids t) {k : TalkId}
    (held : s.cle.holds k = true) : t.cle.holds k = true := by
  obtain ⟨r, mem, channel⟩ := Cle.holds_iff.mp held
  obtain ⟨more, queue, -⟩ := h.grows
  exact Cle.holds_iff.mpr ⟨r, queue ▸ List.mem_append_left _ mem, channel⟩

end

/-! ## Leave marks of the releases already queued (R28) -/

theorem State.markReleases_eq (s : State) : s.markReleases =
    s.setStc { s.stc with leaveMarks := s.markReleases.stc.leaveMarks } ∧
    ∀ k : TalkId, s.markReleases.stc.leaveMarks[k] = true ↔
      s.stc.leaveMarks[k] = true ∨ ∃ r ∈ s.cle.queue, r.kind = .release ∧ r.channel = k := by
  unfold State.markReleases
  generalize s.cle.queue = queue
  induction queue generalizing s with
  | nil => exact ⟨rfl, fun k => by simp⟩
  | cons r queue ih =>
    obtain ⟨frame, marks⟩ := ih (if r.kind == .release then s.setStc { s.stc with leaveMarks := s.stc.leaveMarks.set r.channel true }
      else s)
    rw [List.foldl_cons]
    refine ⟨frame.trans ?_, fun k => (marks k).trans ?_⟩
    · by_cases release : (r.kind == .release) = true
      · rw [if_pos release]
        rfl
      · rw [if_neg release]
    · by_cases release : r.kind = .release
      · have noted : (r.kind == .release) = true := by rw [release]; rfl
        rw [if_pos noted, State.setStc_stc]
        by_cases same : r.channel = k
        · subst same
          simp [release]
        · have differ : r.channel.val ≠ k.val := fun e => same (Fin.ext e)
          simp [Vector.getElem_set_ne, differ, same]
      · have noted : ¬ (r.kind == .release) = true := by simpa using release
        rw [if_neg noted]
        simp [release]

/-! ## The withdrawals of LEAVE (R80) -/

/-- LEAVE ends the request with a WITHDRAWN record: a WAITING CLAIM that is not on the line (R28, R80). -/
def State.leaveEnds (s : State) (r : ClaimRequest) : Bool :=
  r.kind == .claim && r.phase == .waiting && s.cle.onLine != some r.channel

/-- The cause for the message on the line once LEAVE has met a request that it does not end (R28, R80). -/
def leaveCause (r : ClaimRequest) (e : Option ClaimCause) : Option ClaimCause :=
  if r.kind == .claim && r.phase == .waiting then e.orElse fun _ => some .leave else e

theorem leaveCause_foldl {p : ClaimRequest → Bool} {queue : List ClaimRequest} {r : ClaimRequest} (mem : r ∈ queue)
    (stays : p r = false) (claim : r.kind = .claim) (waiting : r.phase = .waiting) (e : Option ClaimCause) :
    queue.foldl (fun e r => if p r then e else leaveCause r e) e = e.orElse fun _ => some .leave := by
  have either : ∀ (q : ClaimRequest) (e : Option ClaimCause), leaveCause q e = e ∨
      leaveCause q e = e.orElse fun _ => some .leave := fun q e => by
    unfold leaveCause
    split
    · exact .inr rfl
    · exact .inl rfl
  have again : ∀ e : Option ClaimCause, ((e.orElse fun _ => some .leave).orElse fun _ => some .leave) =
      e.orElse fun _ => some .leave := fun e => by cases e <;> rfl
  have after : ∀ (queue : List ClaimRequest) (e : Option ClaimCause),
      queue.foldl (fun e r => if p r then e else leaveCause r e) (e.orElse fun _ => some .leave) =
        e.orElse fun _ => some .leave := fun queue e => by
    induction queue with
    | nil => rfl
    | cons q queue ih =>
      rw [List.foldl_cons]
      split
      · exact ih
      · rcases either q (e.orElse fun _ => some .leave) with same | same
        · rw [same, ih]
        · rw [same, again, ih]
  induction queue generalizing e with
  | nil => cases mem
  | cons q queue ih =>
    rw [List.foldl_cons]
    rcases List.mem_cons.mp mem with rfl | later
    · rw [stays]
      have own : leaveCause r e = e.orElse fun _ => some .leave := by simp [leaveCause, claim, waiting]
      rw [if_neg (by decide), own]
      exact after queue e
    · split
      · exact ih later e
      · rcases either q e with same | same
        · rw [same, ih later e]
        · rw [same, after queue e]

theorem State.leaveRequest_eq (t : State) (r : ClaimRequest) : t.leaveRequest r =
    if t.leaveEnds r then t.endRequest r.channel (r.withdrawn .leave)
    else t.setCle { t.cle with lineEnds := leaveCause r t.cle.lineEnds } := by
  unfold State.leaveRequest State.leaveEnds leaveCause
  by_cases claim : (r.kind == .claim && r.phase == .waiting) = true
  · by_cases line : t.cle.onLine = some r.channel
    · simp [claim, line]
    · simp [claim, line]
  · rw [if_neg claim, if_neg (fun h => claim (Bool.and_eq_true_iff.mp h).1), if_neg claim]
    rfl

/-- LEAVE's work at the claim queue in JOINED, in one step (R80). -/
theorem State.withdrawClaims_eq {s : State} (distinct : s.claimsDistinct) : s.withdrawClaims = (s.setCle {
      queue := s.cle.queue.filter fun r => !s.leaveEnds r
      onLine := s.cle.onLine
      lineEnds := s.cle.queue.foldl (fun e r => if s.leaveEnds r then e else leaveCause r e) s.cle.lineEnds }).postAll
    ((s.cle.queue.filter s.leaveEnds).map fun r => r.withdrawn .leave) :=
  State.foldl_endRequest (f := State.leaveRequest) (p := s.leaveEnds) (o := fun r => r.withdrawn .leave) (g := leaveCause)
    (s := s) (fun t _ _ onLine r => by
      have ends : s.leaveEnds r = t.leaveEnds r := by rw [State.leaveEnds, State.leaveEnds, onLine]
      rw [ends, t.leaveRequest_eq r]) s.cle.queue [] s rfl rfl rfl rfl distinct

/-! ## The work that still waits (R62) -/

theorem State.foldl_boundary {α : Type} {f : State → α → State} (step : ∀ t x, (f t x).boundary = t.boundary) (s : State)
    (xs : List α) : (xs.foldl f s).boundary = s.boundary := by
  induction xs generalizing s with
  | nil => rfl
  | cons x xs ih => exact (ih _).trans (step s x)

section
variable (s : State)

theorem State.claimWork_boundary : s.claimWork.boundary = { s.boundary with claims := false } := by
  unfold State.claimWork
  split
  · refine (State.foldl_boundary (fun t r => ?_) _ _).trans ((State.foldl_boundary (fun t r => ?_) _ _).trans rfl)
    · unfold State.settleRelease
      split <;> simp [State.endRequest]
    · unfold State.settleWon
      split <;> simp [State.endRequest]
  · rename_i idle
    have done : s.boundary.claims = false := by simpa using idle
    rw [← done]

theorem State.talkWork_boundary : s.talkWork.boundary = { s.boundary with talk := false } := by
  unfold State.talkWork
  split
  · simp
  · rename_i idle
    have done : s.boundary.talk = false := by simpa using idle
    rw [← done]

theorem State.listenWork_boundary : s.listenWork.boundary = { s.boundary with listen := false } := by
  unfold State.listenWork
  split
  · refine (State.foldl_boundary (fun t k => ?_) _ _).trans (by simp)
    unfold State.resolveListen
    split <;> simp
  · rename_i idle
    have done : s.boundary.listen = false := by simpa using idle
    rw [← done]

theorem State.slotMapWork_station : s.slotMapWork.boundary.station = s.boundary.station := by
  unfold State.slotMapWork
  split
  · dsimp only
    split
    · rfl
    · simp only [State.settle, State.setBoundary_boundary, (State.worksOn_foldl_slotStep _ _).boundary]
  · rfl

/-- With the other blocks' shares done only STC's can still wait. -/
theorem State.finishOthers_boundary :
    s.finishOthers.boundary = { BoundaryWork.nothing with station := s.boundary.station } := by
  have done := s.slotMapWork_done
  have station := s.slotMapWork_station
  rw [State.finishOthers, State.listenWork_boundary, State.talkWork_boundary, State.claimWork_boundary]
  dsimp only
  rw [done, station]
  rfl

end

/-! ## LEAVE in JOINED (R28, R80) -/

section
variable {s : State}

/-- The station LEAVING, with its WAITING CLAIMs withdrawn and the releases queued marked anew (R28, R80). -/
def State.leaveWithdrawn (s : State) : State :=
  (s.setStc { s.stc with state := .leaving, leaveMarks := Vector.replicate 8 false }).withdrawClaims.markReleases

theorem State.leaveJoined_eq (s : State) : s.leaveJoined = s.beforeLeave.leaveWithdrawn.leaveReleases := rfl

/-- What LEAVE has done before it queues the releases of R28. -/
structure State.Withdrawn (s t : State) : Prop where
  frame : ∃ u : State, u = (s.setStc { s.stc with state := .leaving, leaveMarks := t.stc.leaveMarks }).setCle {
      queue := s.cle.queue.filter fun r => !s.leaveEnds r
      onLine := s.cle.onLine
      lineEnds := s.cle.queue.foldl (fun e r => if s.leaveEnds r then e else leaveCause r e) s.cle.lineEnds } ∧
    t = u.postAll ((s.cle.queue.filter s.leaveEnds).map fun r => r.withdrawn .leave)
  marks : ∀ k : TalkId, t.stc.leaveMarks[k] = true ↔ ∃ r ∈ s.cle.queue, r.kind = .release ∧ r.channel = k

theorem State.postAll_setStc (s : State) {v : Stc} (start : v.start = s.stc.start) (rs : List EventRecord) :
    (s.setStc v).postAll rs = (s.postAll rs).setStc v := by
  induction rs generalizing s with
  | nil => rfl
  | cons r rs ih =>
    rw [State.postAll_cons, State.post_setStc s r start, ih _ (by rw [start, State.post_stc]), State.postAll_cons]

theorem State.withdrawn_leaveWithdrawn (distinct : s.claimsDistinct) : s.Withdrawn s.leaveWithdrawn := by
  obtain ⟨frame, marks⟩ := State.markReleases_eq
    (s.setStc { s.stc with state := .leaving, leaveMarks := Vector.replicate 8 false }).withdrawClaims
  rw [State.withdrawClaims_eq (by exact distinct)] at frame marks
  refine ⟨⟨_, rfl, ?_⟩, fun k => ?_⟩
  · rw [State.leaveWithdrawn, State.withdrawClaims_eq (by exact distinct), frame,
      State.postAll_setCle, State.postAll_setStc s (by rfl), State.postAll_setCle, State.postAll_setStc s (by rfl)]
    rfl
  · rw [State.leaveWithdrawn, State.withdrawClaims_eq (by exact distinct), marks k]
    simp only [State.postAll_stc, State.setCle_stc, State.setStc_stc, State.postAll_cle, State.setCle_cle]
    constructor
    · rintro (marked | ⟨r, mem, release⟩)
      · simp at marked
      · exact ⟨r, (List.mem_filter.mp mem).1, release⟩
    · rintro ⟨r, mem, release, channel⟩
      refine .inr ⟨r, List.mem_filter.mpr ⟨mem, ?_⟩, release, channel⟩
      simp [State.leaveEnds, release]

/-- What a LEAVE in JOINED leaves of everything but the claim queue, the marks and the event queue (R28). -/
structure State.LeavesLink (s t : State) : Prop where
  stc : t.stc = { s.stc with state := .leaving, leaveMarks := t.stc.leaveMarks }
  onLine : t.cle.onLine = s.cle.onLine
  lineEnds : t.cle.lineEnds =
    s.cle.queue.foldl (fun e r => if s.leaveEnds r then e else leaveCause r e) s.cle.lineEnds
  kept : ∀ r ∈ s.cle.queue, s.leaveEnds r = false → r ∈ t.cle.queue
  ended : ∀ r ∈ s.cle.queue, s.leaveEnds r = true → r ∉ t.cle.queue
  evq : t.evq = (s.postAll ((s.cle.queue.filter s.leaveEnds).map fun r => r.withdrawn .leave)).evq
  releases : ∀ r ∈ s.cle.queue, r.kind = .release → t.stc.leaveMarks[r.channel] = true
  joins : ∀ k : TalkId, s.talk[k].bound.isSome = true → s.cle.holds k = false →
    s.leaveRequestFor k ∈ t.cle.queue ∧ t.stc.leaveMarks[k] = true
  holds : ∀ k : TalkId, s.talk[k].bound.isSome = true → t.cle.holds k = true
  smap : t.smap = s.smap
  talk : t.talk = s.talk
  listen : t.listen = s.listen
  mpt : t.mpt = s.mpt
  rtm : t.rtm = s.rtm
  lif : t.lif = s.lif
  boundary : t.boundary = s.boundary
  hpt : t.hpt.code = s.hpt.code ∧ t.hpt.params = s.hpt.params ∧ t.hpt.snapshot = s.hpt.snapshot
  rstHeld : t.rstHeld = s.rstHeld
  pending : t.pending = s.pending

theorem State.leavesLink_leaveReleases (distinct : s.claimsDistinct) : s.LeavesLink s.leaveWithdrawn.leaveReleases := by
  obtain ⟨⟨u, hu, withdrawn⟩, marked⟩ := State.withdrawn_leaveWithdrawn distinct
  have releases := s.leaveWithdrawn.releases_leaveReleases
  generalize s.leaveWithdrawn = w at withdrawn marked releases ⊢
  generalize w.leaveReleases = t at releases ⊢
  have stc : w.stc = { s.stc with state := .leaving, leaveMarks := w.stc.leaveMarks } := by
    have same : w.stc = u.stc := by rw [withdrawn, State.postAll_stc]
    rw [same, hu]
    rfl
  have cle : w.cle = u.cle := by rw [withdrawn, State.postAll_cle]
  have queue : w.cle.queue = s.cle.queue.filter fun r => !s.leaveEnds r := by rw [cle, hu]; rfl
  have talk : w.talk = s.talk := by rw [withdrawn, State.postAll_talk, hu]; rfl
  obtain ⟨frame, ⟨more, grows, own⟩, marks, -, joins⟩ := releases
  have request : ∀ k, w.leaveRequestFor k = s.leaveRequestFor k := fun k => by
    rw [State.leaveRequestFor, State.leaveRequestFor, talk]
  have free : ∀ k : TalkId, w.cle.holds k = false → w.stc.leaveMarks[k] = false := fun k none => by
    rw [← Bool.not_eq_true, marked k]
    rintro ⟨r, mem, release, channel⟩
    have held : w.cle.holds k = true := Cle.holds_iff.mpr ⟨r, by
      rw [queue]
      exact List.mem_filter.mpr ⟨mem, by simp [State.leaveEnds, release]⟩, channel⟩
    rw [held] at none
    cases none
  have newest : ∀ k : TalkId, s.talk[k].bound.isSome = true → w.cle.holds k = false →
      s.leaveRequestFor k ∈ t.cle.queue ∧ t.stc.leaveMarks[k] = true := fun k bound none =>
    request k ▸ joins k (List.mem_finRange k) (by rw [talk]; exact bound) none (free k none)
  refine {
    stc := ?_, onLine := ?_, lineEnds := ?_, kept := fun r mem stays => ?_, ended := fun r mem ends later => ?_, evq := ?_
    releases := fun r mem release => marks _ ((marked _).mpr ⟨r, mem, release, rfl⟩)
    joins := fun k bound none => newest k bound ?_, holds := fun k bound => ?_
    smap := ?_, talk := ?_, listen := ?_, mpt := ?_, rtm := ?_, lif := ?_, boundary := ?_, hpt := ?_, rstHeld := ?_
    pending := ?_ }
  · rw [frame]
    simp only [State.setStc_stc]
    rw [stc]
  · rw [frame]
    simp only [State.setStc_cle, State.setCle_cle]
    rw [cle, hu]
    rfl
  · rw [frame]
    simp only [State.setStc_cle, State.setCle_cle]
    rw [cle, hu]
    rfl
  · rw [grows, queue]
    exact List.mem_append_left _ (List.mem_filter.mpr ⟨mem, by rw [stays]; rfl⟩)
  · rw [grows, queue] at later
    rcases List.mem_append.mp later with old | new
    · obtain ⟨-, stays⟩ := List.mem_filter.mp old
      rw [ends] at stays
      cases stays
    · obtain ⟨release, -⟩ := own r new
      simp [State.leaveEnds, release] at ends
  · rw [frame]
    simp only [State.setStc_evq, State.setCle_evq]
    rw [withdrawn, hu]
    exact State.postAll_evq_congr (by rfl) (by rfl) (by rfl) _
  · rw [← Bool.not_eq_true, Cle.holds_iff] at none ⊢
    rintro ⟨r, mem, channel⟩
    rw [queue] at mem
    exact none ⟨r, (List.mem_filter.mp mem).1, channel⟩
  · cases held : w.cle.holds k with
    | true =>
      obtain ⟨r, mem, channel⟩ := Cle.holds_iff.mp held
      exact Cle.holds_iff.mpr ⟨r, grows ▸ List.mem_append_left _ mem, channel⟩
    | false => exact Cle.holds_iff.mpr ⟨_, (newest k bound held).1, rfl⟩
  all_goals
    rw [frame]
    simp only [State.setStc_smap, State.setStc_talk, State.setStc_listen, State.setStc_mpt, State.setStc_rtm,
      State.setStc_lif, State.setStc_boundary, State.setStc_hpt, State.setStc_rstHeld, State.setStc_pending]
    simp only [State.setCle_smap, State.setCle_talk, State.setCle_listen, State.setCle_mpt, State.setCle_rtm,
      State.setCle_lif, State.setCle_boundary, State.setCle_hpt, State.setCle_rstHeld, State.setCle_pending]
    rw [withdrawn, hu]
    simp

end

theorem exec_leave_of_joined {s : State} (taken : s.takes) (joined : s.stc.state = .joined) : exec .leave s =
    .next (((s.withCode 3).beforeLeave.leaveWithdrawn.leaveReleases).answer .ok 3) := by
  have command : (s.withCode 3).leaveCommand = (.ok, (s.withCode 3).leaveJoined) := by
    unfold State.leaveCommand
    rw [show (s.withCode 3).stc.state = .joined from joined]
  rw [exec_leave_of_takes taken, command, State.leaveJoined_eq, answered]

/-- Settles O6: the withdrawals in queue order, and then the releases of `State.Releases`. -/
theorem leaveInJoinedQueuesReleases : Obligations.LeaveInJoinedQueuesReleases := by
  intro s taken joined distinct
  rw [exec_leave_of_joined taken joined]
  refine ⟨fun boundary => ⟨(s.withCode 3).beforeLeave.leaveWithdrawn.leaveReleases.answer .ok 3, rfl, ?_⟩,
    fun passed u others => ⟨(s.withCode 3).beforeLeave.leaveWithdrawn.leaveReleases.answer .ok 3, rfl, ?_⟩⟩
  · have base : (s.withCode 3).beforeLeave = s.withCode 3 := by
      rcases boundary with waits | nothing
      · exact if_pos waits
      · have idle : (s.withCode 3).boundary = .nothing := nothing
        unfold State.beforeLeave
        rw [State.finishOthers_idle (by rw [idle]; rfl) (by rw [idle]; rfl) (by rw [idle]; rfl) (by rw [idle]; rfl),
          ite_self]
    have left := State.leavesLink_leaveReleases (s := s.withCode 3) distinct
    rw [base]
    generalize (s.withCode 3).leaveWithdrawn.leaveReleases = t at left ⊢
    obtain ⟨code, params, snapshot⟩ := left.hpt
    have claims : ∀ r : ClaimRequest, r.kind = .claim → r.phase = .waiting →
        ((s.withCode 3).leaveEnds r = true ↔ s.cle.onLine ≠ some r.channel) := fun r claim waiting => by
      simp [State.leaveEnds, claim, waiting, State.withCode]
    refine ⟨left.stc, rfl, code, params, snapshot, fun r mem claim waiting off => left.ended r mem ?_,
      fun r mem claim waiting line => ?_, fun r mem won => left.kept r mem ?_, fun r mem release =>
      ⟨left.kept r mem ?_, left.releases r mem release⟩, left.joins, left.onLine, ?_, left.smap, left.talk, left.listen,
      left.mpt, left.rtm, left.lif, left.boundary, left.rstHeld, left.pending⟩
    · exact (claims r claim waiting).mpr off
    · have stays : (s.withCode 3).leaveEnds r = false := by
        rw [← Bool.not_eq_true, claims r claim waiting]
        exact not_not_intro line
      exact ⟨left.kept r mem stays, left.lineEnds.trans (leaveCause_foldl mem stays claim waiting _)⟩
    · simp [State.leaveEnds, won]
    · simp [State.leaveEnds, release]
    · exact left.evq.trans (State.postAll_evq_congr (by rfl) (by rfl) (by rfl) _)
  · have base : (s.withCode 3).beforeLeave = u := by
      rw [others]
      exact if_neg (by change ¬ s.boundary.station = true; rw [passed]; decide)
    have apart : u.claimsDistinct := by
      rw [others]
      exact (State.acts_finishOthers (s.withCode 3)).claims distinct
    have left := State.leavesLink_leaveReleases apart
    rw [base]
    generalize u.leaveWithdrawn.leaveReleases = t at left ⊢
    refine ⟨?_, rfl, ?_, left.smap, left.talk, left.listen, left.mpt, left.holds⟩
    · change t.stc.state = .leaving
      rw [left.stc]
    · change t.boundary = .nothing
      rw [left.boundary, others]
      refine (State.finishOthers_boundary _).trans ?_
      change { BoundaryWork.nothing with station := s.boundary.station } = BoundaryWork.nothing
      rw [passed]
      rfl

end Sys2Proof.Machine

/-! STC's boundary work: learning, the receive-quality band, and the end of a leave (R26, R27, R29, R30, R35, R36). -/

namespace Sys2Proof.Machine

/-! ## A report that waits is left alone by STC's own work (R31) -/

/-- The state with another report waiting at STC (R31). -/
def State.withReport (s : State) (x : Option DuplicateReport) : State := s.setStc { s.stc with report := x }

namespace State
variable (s : State) (x : Option DuplicateReport)

theorem withReport_post (r : EventRecord) : (s.withReport x).post r = (s.post r).withReport x := by
  rw [withReport, s.post_setStc r (by rfl), withReport, State.post_stc]

theorem withReport_postAll (rs : List EventRecord) : (s.withReport x).postAll rs = (s.postAll rs).withReport x := by
  rw [withReport, s.postAll_setStc (by rfl), withReport, State.postAll_stc]

theorem withReport_commandComplete : (s.withReport x).commandComplete = s.commandComplete.withReport x := by
  unfold State.commandComplete
  rw [withReport, State.setStc_hpt]
  cases s.hpt.mailbox <;> rfl

theorem withReport_carry {α : Type} (c : ChannelId) (o : Out α) :
    (s.withReport x).carry c o = (s.carry c o).withReport x := by
  have queued : (s.withReport x).enqueue c o.requests = (s.enqueue c o.requests).withReport x := rfl
  unfold State.carry
  dsimp only
  rw [queued, withReport_postAll, withReport_commandComplete]
  split <;> rfl

theorem withReport_endRelease (k : TalkId) : (s.withReport x).endRelease k = (s.endRelease k).withReport x := by
  unfold State.endRelease
  change (if s.stc.state == .joined && !s.cle.holds k then _ else _) = _
  split <;> rfl

theorem withReport_applyTalk (k : TalkId) (f : ChannelContext → Talk → Out Talk) :
    (s.withReport x).applyTalk k f = (s.applyTalk k f).withReport x := by
  have carried := (s.setTalk k (f (s.talkContext k) s.talk[k]).chan).withReport_carry x (talkChannel k)
    (f (s.talkContext k) s.talk[k])
  have same : ((s.withReport x).setTalk k (f ((s.withReport x).talkContext k) (s.withReport x).talk[k]).chan) =
      (s.setTalk k (f (s.talkContext k) s.talk[k]).chan).withReport x := rfl
  unfold State.applyTalk
  dsimp only
  rw [same]
  change (if (f (s.talkContext k) s.talk[k]).release then State.endRelease (State.carry _ _ (f (s.talkContext k) s.talk[k])) k
    else State.carry _ _ (f (s.talkContext k) s.talk[k])) = _
  rw [carried, withReport_endRelease]
  split <;> rfl

theorem withReport_applyListen (k : ListenId) (f : ChannelContext → Listen → Out Listen) :
    (s.withReport x).applyListen k f = (s.applyListen k f).withReport x :=
  (s.setListen k (f (s.listenContext k) s.listen[k]).chan).withReport_carry x (listenChannel k)
    (f (s.listenContext k) s.listen[k])

theorem withReport_foldl {α : Type} {f : State → α → State}
    (h : ∀ (s : State) (a : α), f (s.withReport x) a = (f s a).withReport x) (as : List α) :
    as.foldl f (s.withReport x) = (as.foldl f s).withReport x := by
  induction as generalizing s with
  | nil => rfl
  | cons a as ih => rw [List.foldl_cons, h, ih, List.foldl_cons]

theorem withReport_unbindChannels : (s.withReport x).unbindChannels = s.unbindChannels.withReport x := by
  have talk : (s.withReport x).eachTalk Talk.leaveLink = (s.eachTalk Talk.leaveLink).withReport x :=
    s.withReport_foldl x (fun t k => t.withReport_applyTalk x k Talk.leaveLink) _
  rw [State.unbindChannels, talk, State.unbindChannels]
  exact State.withReport_foldl _ x (fun t k => t.withReport_applyListen x k Listen.leaveLink) _

theorem withReport_windowRound : (s.withReport x).windowRound = s.windowRound.withReport x := by
  unfold State.windowRound
  change (if s.stc.windowRounds + 1 < Config.windowRounds then _ else if s.stc.band.judged s.stc.windowErrors != s.stc.band
    then ((s.setStc { s.stc with band := s.stc.band.judged s.stc.windowErrors, windowRounds := 0, windowErrors := 0
      }).withReport x).post _ else _) = _
  rw [withReport_post]
  dsimp only
  split
  · rfl
  · split <;> rfl

theorem withReport_learnRound : (s.withReport x).learnRound = s.learnRound.withReport x := by
  unfold State.learnRound
  change (if Config.learnRounds ≤ s.stc.learn + 1 then ((s.setStc { s.stc with learn := s.stc.learn + 1, state := .joined
    }).withReport x).post _ else _) = _
  rw [withReport_post]
  dsimp only
  split <;> rfl

theorem withReport_leaveReleases : (s.withReport x).leaveReleases = s.leaveReleases.withReport x := by
  refine s.withReport_foldl x (fun t k => ?_) _
  unfold State.leaveRelease
  change (if t.talk[k].bound.isSome && !t.cle.holds k && !t.stc.leaveMarks[k] then _ else _) = _
  split <;> rfl

theorem withReport_enterReady : (s.withReport x).enterReady = s.enterReady.withReport x := by
  have left : (s.withReport x).offLink = s.offLink.withReport x :=
    (s.stopLink.setSmap s.stopLink.smap.freed).withReport_unbindChannels x
  have own : (s.withReport x).smap.ownCount = s.smap.ownCount := rfl
  rw [State.enterReady_eq, State.enterReady_eq, left, own]
  generalize s.offLink = u
  rw [← withReport_post]
  rfl

/-- STC's round does not look at the report (R31). -/
theorem withReport_stationRound : (s.withReport x).stationRound = s.stationRound.withReport x := by
  have base : (s.withReport x).setBoundary { (s.withReport x).boundary with station := false } =
      (s.setBoundary { s.boundary with station := false }).withReport x := rfl
  unfold State.stationRound
  rw [base]
  generalize s.setBoundary { s.boundary with station := false } = b
  dsimp only
  rw [withReport_windowRound, withReport_learnRound, withReport_leaveReleases, withReport_windowRound,
    withReport_windowRound, withReport_enterReady, withReport_enterReady]
  have state : (b.withReport x).stc.state = b.stc.state := rfl
  have pending : (b.withReport x).stc.leavePending = b.stc.leavePending := rfl
  have queue : ∀ u : State, (u.withReport x).cle = u.cle := fun _ => rfl
  rw [state, pending, queue]
  cases b.stc.state with
  | listening => dsimp only; split <;> rfl
  | leaving => dsimp only; split <;> rfl
  | off | ready | joined | fault => rfl

end State

/-- STC's round, and then the report that waits with it (R31). -/
theorem State.stationRound_report (s : State) (r : DuplicateReport) (report : s.stc.report = some r) :
    s.stationRound = (State.stationRound (s.withReport none)).withReport (some r) ∧
      (State.stationRound (s.withReport none)).takeReport = State.stationRound (s.withReport none) := by
  have own : s = (s.withReport none).withReport (some r) := by
    rw [← report]
    rfl
  have none' : State.stationRound (s.withReport none) = (State.stationRound (s.withReport none)).withReport none :=
    (s.withReport none).withReport_stationRound none
  refine ⟨?_, State.takeReport_none ?_⟩
  · conv_lhs => rw [own]
    exact State.withReport_stationRound _ _
  · rw [none']
    rfl

/-- A report is taken from what STC's round leaves, the same entry with or without it (R31). -/
theorem State.takeReport_withReport (u : State) (r : DuplicateReport) (takes : u.stc.state.takesReport = true) :
    (u.withReport (some r)).takeReport = u.enterFault .duplicateId (some r.slot) (some r.tag) :=
  State.takeReport_some (s := u.withReport (some r)) rfl takes

end Sys2Proof.Machine

/-! STC's boundary work settled: learning and the band (R26, R31, R35, R36). -/

namespace Sys2Proof.Machine

section
variable {s : State}

theorem State.learnRound_state (listening : s.stc.state = .listening) :
    s.learnRound.stc.state = .listening ∨ s.learnRound.stc.state = .joined := by
  unfold State.learnRound
  dsimp only
  split
  · right
    rw [State.post_stc]
    rfl
  · exact .inl listening

/-- The state of which STC's round takes its share. -/
def State.ownShare (s : State) : State := s.setBoundary { s.boundary with station := false }

theorem State.stationRound_listening (listening : s.stc.state = .listening) (pending : s.stc.leavePending = false) :
    s.stationRound = s.ownShare.learnRound.windowRound := by
  unfold State.stationRound
  dsimp only [State.setBoundary_stc]
  rw [listening]
  exact if_neg (by simp [pending])

theorem State.stationRound_joined (joined : s.stc.state = .joined) : s.stationRound = s.ownShare.windowRound := by
  unfold State.stationRound
  dsimp only [State.setBoundary_stc]
  rw [joined]
  rfl

/-- Where no leave ends, STC's round leaves the station in a link state (R26, R35). -/
theorem State.stationRound_takesReport (pending : s.stc.leavePending = false)
    (link : s.stc.state = .listening ∨ s.stc.state = .joined) : s.stationRound.stc.state.takesReport = true := by
  rcases link with listening | joined
  · rw [State.stationRound_listening listening pending, State.windowRound_state]
    rcases State.learnRound_state (s := s.ownShare) listening with h | h <;> rw [h] <;> rfl
  · rw [State.stationRound_joined joined, State.windowRound_state]
    change s.stc.state.takesReport = true
    rw [joined]
    rfl

theorem State.windowRound_of_open (rounds : s.stc.windowRounds < 63) :
    s.windowRound = s.setStc { s.stc with windowRounds := s.stc.windowRounds + 1 } :=
  if_pos (by simp only [Config.windowRounds]; omega)

theorem State.windowRound_of_end (rounds : s.stc.windowRounds = 63) : s.windowRound =
    if s.stc.band.judged s.stc.windowErrors = s.stc.band then
      s.setStc { s.stc with windowRounds := 0, windowErrors := 0 }
    else (s.setStc { s.stc with band := s.stc.band.judged s.stc.windowErrors, windowRounds := 0, windowErrors := 0 }).post
      (event .bandChanged (s.stc.band.judged s.stc.windowErrors).code) := by
  have ended : ¬ s.stc.windowRounds + 1 < Config.windowRounds := by simp only [Config.windowRounds]; omega
  unfold State.windowRound
  rw [if_neg ended]
  dsimp only
  by_cases same : s.stc.band.judged s.stc.windowErrors = s.stc.band
  · rw [if_pos same, if_neg (by simp [same]), same]
  · rw [if_neg same, if_pos (by simp [same])]

theorem State.learnRound_of_short (short : s.stc.learn < 7) :
    s.learnRound = s.setStc { s.stc with learn := s.stc.learn + 1 } :=
  if_neg (by simp only [Config.learnRounds]; omega)

theorem State.learnRound_of_last (last : s.stc.learn = 7) :
    s.learnRound = (s.setStc { s.stc with learn := 8, state := .joined }).post (event .linkJoined) := by
  unfold State.learnRound
  dsimp only
  rw [if_pos (by rw [last]; decide), last]

theorem exec_stationBoundaryWork : exec .stationBoundaryWork s = .next s.stationWork := rfl

/-- STC's work leaves the station off the fault entry where no report waits. -/
theorem exec_stationBoundaryWork_staying (station : s.boundary.station = true) (pending : s.stc.leavePending = false)
    (staying : s.stc.state ≠ .leaving) (none : s.stationRound.stc.report = none) :
    exec .stationBoundaryWork s = .next s.stationRound := by
  rw [exec_stationBoundaryWork, State.stationWork_staying station pending staying, State.takeReport_none none]

theorem State.stationRound_report_none (report : s.stc.report = none) : s.stationRound.stc.report = none := by
  have own : s.withReport none = s := by
    rw [← report]
    rfl
  rw [← own, State.withReport_stationRound]
  rfl

theorem State.stationRound_stamp (pending : s.stc.leavePending = false)
    (link : s.stc.state = .listening ∨ s.stc.state = .joined) : s.stationRound.stamp = s.stamp := by
  have window : ∀ t : State, t.windowRound.stamp = t.stamp := fun t => by
    unfold State.windowRound
    dsimp only
    split
    · rfl
    · split
      · rw [State.stamp, State.post_rtm]; rfl
      · rfl
  have learn : ∀ t : State, t.learnRound.stamp = t.stamp := fun t => by
    unfold State.learnRound
    dsimp only
    split
    · rw [State.stamp, State.post_rtm]; rfl
    · rfl
  rcases link with listening | joined
  · rw [State.stationRound_listening listening pending, window, learn]
    rfl
  · rw [State.stationRound_joined joined, window]
    rfl

end

/-- Settles O41: the learn round, then the window round, then the report that waits. -/
theorem stationBoundaryWorkLearnsAndJudges : Obligations.StationBoundaryWorkLearnsAndJudges := by
  intro s
  refine ⟨fun idle => next_of_eq (State.stationWork_idle idle), fun station pending r report link => ?_,
    fun station pending report u hu => ?_⟩
  · have takes := State.stationRound_takesReport (s := s.withReport none) pending link
    have stamp : (s.withReport none).stationRound.stamp = s.stamp :=
      State.stationRound_stamp (s := s.withReport none) pending link
    have staying : s.stc.state ≠ .leaving := by rcases link with h | h <;> rw [h] <;> decide
    obtain ⟨round, taken⟩ := s.stationRound_report r report
    refine ⟨(s.withReport none).stationRound, (s.withReport none).stationRound.enterFault .duplicateId (some r.slot)
      (some r.tag), ?_, ?_, State.entersFault_enterFault _ _ _ _, fun place => ?_⟩
    · refine next_of_eq ?_
      rw [← taken]
      exact State.stationWork_staying (s := s.withReport none) station pending staying
    · refine next_of_eq ?_
      rw [State.stationWork_staying station pending staying, round, State.takeReport_withReport _ _ takes]
    · obtain ⟨more, queue⟩ := State.enterFault_queue _ .duplicateId (some r.slot) (some r.tag) place
      exact ⟨more, by rw [queue, stamp]; rfl⟩
  · have share : u = s.ownShare := hu
    have fresh : s.stationRound.stc.report = none := State.stationRound_report_none report
    have work : s.stc.state = .listening ∨ s.stc.state = .joined → exec .stationBoundaryWork s = .next s.stationRound :=
      fun link => exec_stationBoundaryWork_staying station pending (by rcases link with h | h <;> rw [h] <;> decide) fresh
    subst share
    refine ⟨fun listening learn rounds => ?_, fun listening learn rounds => ?_, fun joined rounds => ?_,
      fun joined rounds band judged => ?_⟩
    · rw [work (.inl listening), State.stationRound_listening listening pending,
        State.learnRound_of_short (by exact learn), State.windowRound_of_open (by exact rounds)]
      rfl
    · rw [work (.inl listening), State.stationRound_listening listening pending,
        State.learnRound_of_last (by exact learn), s.ownShare.post_setStc _ (by rfl),
        State.windowRound_of_open (by exact rounds)]
      rfl
    · rw [work (.inr joined), State.stationRound_joined joined, State.windowRound_of_open (by exact rounds)]
      rfl
    · have own : s.ownShare.stc.band.judged s.ownShare.stc.windowErrors = band := judged.symm
      rw [work (.inr joined), State.stationRound_joined joined, State.windowRound_of_end (by exact rounds), own]
      refine ⟨fun same => ?_, fun changed => ?_⟩
      · rw [if_pos (by exact same)]
        rfl
      · rw [if_neg (by exact changed)]
        cases band <;> rfl

end Sys2Proof.Machine

/-! The end of a leave at a boundary (R27, R29, R30). -/

namespace Sys2Proof.Machine

section
variable {s : State}

/-! ## The drop count only grows (R168) -/

theorem State.post_dropped (r : EventRecord) : (s.post r).evq.dropped = s.evq.dropped ∨
    (s.post r).evq.dropped = min 65535 (s.evq.dropped + 1) := by
  unfold State.post State.enter
  split <;> [split; skip]
  · exact .inl rfl
  · exact .inr rfl
  · exact .inl rfl

theorem State.postAll_dropped_least (rs : List EventRecord) :
    min 65535 s.evq.dropped ≤ (s.postAll rs).evq.dropped := by
  induction rs generalizing s with
  | nil => simp
  | cons r rs ih =>
    rw [State.postAll_cons]
    have later := ih (s := s.post r)
    rcases s.post_dropped r with same | more <;> omega

/-- A record that is not dropped is the newest of the queue (R167). -/
theorem State.post_newest {r : EventRecord} (recorded : s.records r.kind = true)
    (kept : (s.post r).evq.dropped = s.evq.dropped) (count : s.evq.dropped < 65535) :
    (s.post r).evq.queue = s.evq.queue ++ [{ r with stamp := s.stamp }] := by
  rcases lt_or_ge s.evq.queue.length 32 with place | full
  · rw [State.post_of_recorded recorded, State.enter_of_place place]
    rfl
  · rw [State.post_of_recorded recorded, State.enter_of_full full] at kept
    have more : min 65535 (s.evq.dropped + 1) = s.evq.dropped := kept
    omega

/-! ## The records and the state of a leave that ends -/

/-- A leave that ends at this boundary (R27, R29). -/
def State.leaveDone (s : State) : Prop :=
  (s.stc.state = .leaving ∧ s.cle.queue = [] ∧ ∀ k : TalkId, s.talk[k].bound = none ∨ s.stc.leaveMarks[k] = true) ∨
    (s.stc.state = .listening ∧ s.stc.leavePending = true)

theorem State.leaveReleases_of_marked (marked : ∀ k : TalkId, s.talk[k].bound = none ∨ s.stc.leaveMarks[k] = true) :
    s.leaveReleases = s := by
  have stays : ∀ k, s.leaveRelease k = s := fun k => if_neg fun calls => by
    obtain ⟨⟨bound, -⟩, unmarked⟩ : (s.talk[k].bound.isSome = true ∧ s.cle.holds k = false) ∧
      s.stc.leaveMarks[k] = false := by simpa [-Fin.getElem_fin] using calls
    rcases marked k with free | mark
    · rw [free] at bound
      cases bound
    · rw [mark] at unmarked
      cases unmarked
  unfold State.leaveReleases
  generalize List.finRange 8 = ids
  induction ids with
  | nil => rfl
  | cons k ids ih => rw [List.foldl_cons, stays, ih]

/-- The station at a leave's last boundary, its window round counted (R35). -/
def State.lastRound (s : State) : State := s.ownShare.setStc { s.stc with windowRounds := s.stc.windowRounds + 1 }

theorem State.stationRound_leaving (leaving : s.stc.state = .leaving) : s.stationRound =
    if s.ownShare.leaveReleases.windowRound.cle.queue.isEmpty then s.ownShare.leaveReleases.windowRound.enterReady
    else s.ownShare.leaveReleases.windowRound := by
  have state : s.ownShare.stc.state = .leaving := leaving
  rw [State.stationRound, ← State.ownShare]
  generalize s.ownShare = u at state ⊢
  dsimp only
  rw [state]

theorem State.stationRound_of_leaveDone (ends : s.leaveDone) (rounds : s.stc.windowRounds < 63) :
    s.stationRound = s.lastRound.enterReady := by
  have last : s.ownShare.windowRound = s.lastRound := State.windowRound_of_open (by exact rounds)
  rcases ends with ⟨leaving, empty, marked⟩ | ⟨listening, pending⟩
  · have none : s.ownShare.leaveReleases = s.ownShare := State.leaveReleases_of_marked (by exact marked)
    have drained : s.lastRound.cle.queue.isEmpty = true := by
      rw [List.isEmpty_iff]
      exact empty
    rw [State.stationRound_leaving leaving, none, last, if_pos drained]
  · unfold State.stationRound
    dsimp only [State.setBoundary_stc]
    rw [listening]
    exact (if_pos (by simp [pending])).trans (congrArg State.enterReady last)

theorem State.stationWork_of_alone (boundary : s.boundary = { BoundaryWork.nothing with station := true }) :
    s.stationWork = s.stationRound.takeReport := by
  have others : s.finishOthers = s := State.finishOthers_idle (by rw [boundary]; rfl) (by rw [boundary]; rfl)
    (by rw [boundary]; rfl) (by rw [boundary]; rfl)
  have before : s.beforeStation = s := by
    unfold State.beforeStation
    rw [others, ite_self]
  rw [State.stationWork, if_pos (by rw [boundary]), before]

/-- The station as the end of a leave reaches the channels (R30). -/
def State.leftLink (s : State) : State := s.stopLink.setSmap s.stopLink.smap.freed

/-- The station as it enters READY at the end of a leave, before LINK_LEFT (R30). -/
def State.readied (s : State) : State := s.leftLink.unbindChannels.setStc { s.stc with
  state := .ready, leavePending := false, leaveMarks := Vector.replicate 8 false }

/-- LINK_LEFT with the number of slots still OWNED (R30). -/
def State.leftRecord (s : State) : EventRecord := event .linkLeft s.smap.ownCount

theorem State.enterReady_post : s.enterReady = s.readied.post s.leftRecord := by
  rw [State.enterReady_eq, State.offLink_stc, State.readied, State.leftRecord, State.offLink, State.leftLink]

theorem State.enterReady_stc : s.enterReady.stc = { s.stc with
    state := .ready, leavePending := false, leaveMarks := Vector.replicate 8 false } := by
  rw [State.enterReady_post, State.post_stc, State.readied, State.setStc_stc]

theorem State.readied_stamp : s.readied.stamp = s.stamp := by
  simp [State.stamp, State.readied, State.leftLink, State.unbindChannels, State.stopLink, Rtm.halted]

theorem State.linkStopped_enterReady : s.linkStopped s.enterReady := by
  have stopped : s.linkStopped s.leftLink.unbindChannels := by
    refine s.linkStopped_unbindChannels ?_
    simp [State.linkStopped, State.leftLink, State.stopLink, Rtm.halted, Lif.stopped]
  simpa [State.linkStopped, State.enterReady_post, State.readied] using stopped

theorem State.channelsUnbound_enterReady : s.channelsUnbound s.enterReady := by
  have unbound := s.leftLink.channelsUnbound_unbindChannels
  rw [State.enterReady_post, State.channelsUnbound, State.post_talk, State.post_listen, State.readied,
    State.setStc_talk, State.setStc_listen]
  exact unbound

theorem State.enterReady_smap : s.enterReady.smap = s.smap.freed := by
  simp [State.enterReady_post, State.readied, State.leftLink, State.unbindChannels, State.stopLink]

theorem State.enterReady_cle : s.enterReady.cle = s.cle := by
  rw [State.enterReady_post, State.post_cle, State.readied, State.setStc_cle, State.unbindChannels_cle]
  rfl

/-- The records of the channels come before LINK_LEFT (R27, R30). -/
theorem State.readied_evq : s.readied.evq = (s.postAll s.leftLink.leaveRecords).evq := by
  rw [State.readied, State.setStc_evq, State.unbindChannels_evq]
  exact State.postAll_evq_congr (by rfl) (by rfl) (by rfl) _

theorem State.enterReady_queue_of_quiet (talk : ∀ k : TalkId, s.talk[k].heldHalts = [] ∧ s.talk[k].bound = none)
    (listen : ∀ k : ListenId, s.listen[k].episode = none ∧ s.listen[k].close = .none)
    (place : s.evq.queue.length < 32) :
    s.enterReady.evq.queue = s.evq.queue ++ [{ s.leftRecord with stamp := s.stamp }] := by
  have silent : s.leftLink.leaveRecords = [] := by
    rw [State.leaveRecords, List.append_eq_nil_iff, List.flatMap_eq_nil_iff, List.flatMap_eq_nil_iff]
    exact ⟨fun k _ => Talk.leaveLink_records_of_unbound (talk k).2 (talk k).1,
      fun k _ => Listen.leaveLink_records (listen k).1 (by
        change s.listen[k].close ≠ .taken
        rw [(listen k).2]
        decide)⟩
  have evq : s.readied.evq = s.evq := by rw [State.readied_evq, silent]; rfl
  rw [State.enterReady_post, State.post_of_place (State.records_link (.inl rfl)) (by rw [evq]; exact place),
    State.setEvq_evq, evq, State.readied_stamp]

theorem State.enterReady_newest (kept : s.enterReady.evq.dropped = s.evq.dropped) (count : s.evq.dropped < 65535) :
    s.enterReady.evq.queue.getLast? = some { s.leftRecord with stamp := s.stamp } := by
  have least := s.postAll_dropped_least s.leftLink.leaveRecords
  rw [← State.readied_evq] at least
  have later := s.readied.post_dropped s.leftRecord
  rw [← State.enterReady_post] at later
  have same : s.readied.evq.dropped = s.evq.dropped := by omega
  have newest := State.post_newest (s := s.readied) (r := s.leftRecord) (State.records_link (.inl rfl))
    (by rw [← State.enterReady_post, kept, same]) (by omega)
  rw [State.enterReady_post, newest, List.getLast?_append, State.readied_stamp]
  rfl

/-- In LEAVING with a request in the queue after the releases, the leave goes on (R29). -/
theorem State.stationRound_leaving_stays (leaving : s.stc.state = .leaving) (rounds : s.stc.windowRounds < 63)
    (waits : s.ownShare.leaveReleases.cle.queue ≠ []) (same : s.ownShare.leaveReleases.stc.windowRounds = s.stc.windowRounds) :
    s.stationRound = s.ownShare.leaveReleases.setStc { s.ownShare.leaveReleases.stc with
      windowRounds := s.stc.windowRounds + 1 } := by
  rw [State.stationRound_leaving leaving]
  generalize s.ownShare.leaveReleases = u at waits same ⊢
  rw [State.windowRound_of_open (by rw [same]; exact rounds), if_neg (by simpa using waits), same]

end

/-- Settles O42: the end of the leave, with the report that waits, or the releases it still needs. -/
theorem leaveEndsAtABoundary : Obligations.LeaveEndsAtABoundary := by
  intro s boundary rounds
  refine ⟨fun r report ends => ?_, fun report ends => ?_, fun k report leaving bound free unmarked => ?_⟩
  · have done : (s.withReport none).leaveDone := ends
    obtain ⟨round, taken⟩ := s.stationRound_report r report
    have ready : (s.withReport none).stationRound.stc.state = .ready := by
      rw [State.stationRound_of_leaveDone done (by exact rounds), State.enterReady_stc]
    refine ⟨(s.withReport none).stationRound, (s.withReport none).stationRound.enterFault .duplicateId (some r.slot)
      (some r.tag), next_of_eq ?_, next_of_eq ?_, ready, State.entersFault_enterFault _ _ _ _⟩
    · rw [← taken]
      exact State.stationWork_of_alone (s := s.withReport none) boundary
    · rw [State.stationWork_of_alone boundary, round, State.takeReport_withReport _ _ (by rw [ready]; rfl)]
  · have done : s.leaveDone := ends
    have work : exec .stationBoundaryWork s = .next s.lastRound.enterReady := by
      rw [exec_stationBoundaryWork, State.stationWork_of_alone boundary,
        State.takeReport_none (State.stationRound_report_none report), State.stationRound_of_leaveDone done rounds]
    refine ⟨s.lastRound.enterReady, work, ?_, State.enterReady_smap, State.enterReady_cle, ?_, ?_,
      fun talk listen place => State.enterReady_queue_of_quiet (s := s.lastRound) talk listen place,
      fun kept count => State.enterReady_newest (s := s.lastRound) kept count⟩
    · rw [State.enterReady_stc]
      change { s.stc with
        state := .ready, leavePending := false, leaveMarks := Vector.replicate 8 false
        windowRounds := s.stc.windowRounds + 1 } = _
      rw [← report]
    · exact State.linkStopped_enterReady (s := s.lastRound)
    · exact State.channelsUnbound_enterReady (s := s.lastRound)
  · have stays := State.stationRound_leaving_stays leaving rounds
    have releases := s.ownShare.releases_leaveReleases
    have fresh : s.stationRound.stc.report = none := State.stationRound_report_none report
    generalize s.ownShare.leaveReleases = u at stays releases
    obtain ⟨joined, marked⟩ := releases.joins k (List.mem_finRange k) bound free unmarked
    have round := stays (List.ne_nil_of_mem joined) (by rw [releases.frame]; rfl)
    refine ⟨s.stationRound, ?_, ?_⟩
    · rw [exec_stationBoundaryWork, State.stationWork_of_alone boundary, State.takeReport_none fresh]
    · rw [round]
      refine ⟨?_, marked, joined, ?_, ?_⟩
      · rw [State.setStc_stc, releases.frame]
        exact leaving
      · rw [State.setStc_talk, releases.frame]
        rfl
      · rw [State.setStc_smap, releases.frame]
        rfl

end Sys2Proof.Machine

/-! The Memory Port's arbiter, the events at one channel, and CLAIM and RELEASE (R67, R68, R140 to R144, R148, R157). -/

namespace Sys2Proof.Machine

/-! ## The arbiter (R140 to R142) -/

section
variable {m : Mpt} {c : ChannelId}

/-- The circular search finds the first ready channel behind the pointer (R142). -/
theorem Mpt.nextReady_eq_some (ready : m.waiting[c] ≠ [])
    (first : ∀ d : ChannelId, d - (m.pointer + 1) < c - (m.pointer + 1) → m.waiting[d] = []) : m.nextReady = some c := by
  have found : (List.finRange 16).find? (fun i => !m.waiting[m.pointer + 1 + i].isEmpty) =
      some (c - (m.pointer + 1)) := by
    refine find?_finRange_eq_some ?_ fun j before => ?_
    · simpa [-Fin.getElem_fin] using ready
    · simpa [-Fin.getElem_fin] using first (m.pointer + 1 + j) (by simpa using before)
  rw [Mpt.nextReady, List.find?_map]
  change ((List.finRange 16).find? (fun i => !m.waiting[m.pointer + 1 + i].isEmpty)).map _ = _
  rw [found]
  simp

theorem Mpt.nextReady_isSome (ready : m.waiting[c] ≠ []) : m.nextReady.isSome = true := by
  rw [Mpt.nextReady, List.find?_isSome]
  refine ⟨c, ?_, by simpa [-Fin.getElem_fin] using ready⟩
  exact List.mem_map.mpr ⟨c - (m.pointer + 1), List.mem_finRange _, by simp⟩

theorem Mpt.waiting_of_nextReady (next : m.nextReady = some c) : m.waiting[c] ≠ [] := by
  simpa [-Fin.getElem_fin] using List.find?_some next

theorem Mpt.mayGrant_iff : m.mayGrant = true ↔ m.outstanding.length < 4 ∧ m.absorb = 0 := by
  rw [Mpt.mayGrant, Bool.and_eq_true, decide_eq_true_iff, beq_iff_eq]
  rfl

/-- A grant issues the head of the channel's waiting list (R140 to R142). -/
theorem Mpt.grant_of_next {r : MemRequest} {rest : List MemRequest} (place : m.outstanding.length < 4)
    (quiet : m.absorb = 0) (next : m.nextReady = some c) (head : m.waiting[c] = r :: rest) : m.grant =
      { m with waiting := m.waiting.set c rest, outstanding := m.outstanding ++ [r], pointer := c } := by
  unfold Mpt.grant
  rw [if_pos (Mpt.mayGrant_iff.mpr ⟨place, quiet⟩), next]
  dsimp only
  rw [head]

theorem Mpt.grant_of_not (h : 4 ≤ m.outstanding.length ∨ 0 < m.absorb) : m.grant = m :=
  if_neg fun may => by
    obtain ⟨place, quiet⟩ := Mpt.mayGrant_iff.mp may
    omega

theorem Mpt.grant_of_none (idle : ∀ c : ChannelId, m.waiting[c] = []) : m.grant = m := by
  have none : m.nextReady = none := List.find?_eq_none.mpr fun d _ => by
    simpa [-Fin.getElem_fin] using idle d
  unfold Mpt.grant
  rw [none]
  exact ite_self _

end

theorem exec_arbiterGrant {s : State} : exec .arbiterGrant s = .next (s.setMpt s.mpt.grant) := rfl

theorem exec_memoryResponse {s : State} {error : Bool} {data : Vector Word 8} :
    exec (.memoryResponse error data) s = .next (s.takeResponse error data) := rfl

/-- Settles O43: the circular search, then the head of the list it finds. -/
theorem arbiterGrantsInTurn : Obligations.ArbiterGrantsInTurn := by
  refine fun s => ⟨fun c r rest place quiet head first => ?_, fun h => ?_⟩
  · have next := Mpt.nextReady_eq_some (by rw [head]; exact List.cons_ne_nil _ _) first
    rw [exec_arbiterGrant, Mpt.grant_of_next place quiet next head]
    rfl
  · have same : s.mpt.grant = s.mpt := by
      rcases h with full | absorbs | idle
      · exact Mpt.grant_of_not (.inl full)
      · exact Mpt.grant_of_not (.inr absorbs)
      · exact Mpt.grant_of_none idle
    rw [exec_arbiterGrant, same]
    rfl

/-- Settles O44: an absorbed response counts itself off, and the last one lets the arbiter grant. -/
theorem oldResponsesAreAbsorbed : Obligations.OldResponsesAreAbsorbed := by
  intro s r rest error data outstanding absorbs bounded
  have within : s.mpt.absorb ≤ rest.length + 1 ∧ rest.length + 1 ≤ 4 := by
    have := bounded
    rw [State.portBounded, outstanding, List.length_cons] at this
    omega
  refine ⟨?_, { s with mpt := { s.mpt with outstanding := rest, absorb := s.mpt.absorb - 1 } }, ?_, rfl, ?_,
    fun last ⟨c, ready⟩ => ?_⟩
  · rw [exec_arbiterGrant, Mpt.grant_of_not (.inr absorbs)]
    rfl
  · rw [exec_memoryResponse, State.takeResponse, outstanding]
    exact next_of_eq (if_pos absorbs)
  · change s.mpt.absorb - 1 ≤ rest.length
    omega
  · obtain ⟨d, next⟩ := Option.isSome_iff_exists.mp
      (Mpt.nextReady_isSome (m := { s.mpt with outstanding := rest, absorb := s.mpt.absorb - 1 }) ready)
    obtain ⟨first, others, head⟩ := List.exists_cons_of_ne_nil (Mpt.waiting_of_nextReady next)
    refine ⟨_, exec_arbiterGrant, ?_⟩
    rw [Mpt.grant_of_next (by change rest.length < 4; omega) (by change s.mpt.absorb - 1 = 0; omega) next head]
    simp

/-! ## The work of one channel (R140, R144, R157) -/

theorem channel_cases (c : ChannelId) : (∃ k, c = talkChannel k) ∨ ∃ k, c = listenChannel k := by
  by_cases talk : c.val < 8
  · exact .inl ⟨⟨c.val, talk⟩, rfl⟩
  · exact .inr ⟨⟨c.val - 8, by omega⟩, Fin.ext (by simp [listenChannel]; omega)⟩

theorem talkChannel_ne_listenChannel (k : TalkId) (j : ListenId) : talkChannel k ≠ listenChannel j := fun same => by
  have := congrArg Fin.val same
  simp only [talkChannel, listenChannel] at this
  omega

theorem talkChannel_inj {j k : TalkId} : talkChannel j = talkChannel k ↔ j = k := by
  simp [talkChannel, Fin.ext_iff]

theorem listenChannel_inj {j k : ListenId} : listenChannel j = listenChannel k ↔ j = k := by
  simp [listenChannel, Fin.ext_iff]

section
variable {s : State}

/-- What the mailbox can do at one channel's event: the command in progress may complete (R154). -/
theorem State.commandComplete_mailbox : s.commandComplete.hpt.mailbox = s.hpt.mailbox ∨
    ∃ code, s.hpt.mailbox = .busy code ∧ s.commandComplete.hpt.mailbox = .done .ok code := by
  unfold State.commandComplete
  split
  · exact .inr ⟨_, by assumption, rfl⟩
  all_goals exact .inl rfl

theorem State.onlyChannelWorked_refl (c : ChannelId) : s.onlyChannelWorked s c :=
  ⟨rfl, rfl, rfl, rfl, rfl, rfl, rfl, fun _ _ => rfl, fun _ _ => rfl, .inl rfl, fun _ _ => rfl, ⟨[], by simp⟩, rfl, rfl,
    rfl, .inl rfl, rfl, ⟨[], by simp⟩⟩

theorem State.onlyChannelWorked_applyTalk (k : TalkId) (f : ChannelContext → Talk → Out Talk) :
    s.onlyChannelWorked (s.applyTalk k f) (talkChannel k) := by
  obtain ⟨head, queue, hpt, -, mailbox⟩ := s.applyTalk_reported k f
  refine ⟨by simp, by simp, by simp, by simp, by simp, by simp, by simp, fun j other => ?_, fun j _ => by simp, ?_,
    fun d other => ?_, ⟨(f (s.talkContext k) s.talk[k]).requests, ?_⟩, ?_, ?_, hpt, mailbox, head, queue⟩
  · exact State.applyTalk_other f fun same => other (by rw [same])
  · rcases s.applyTalk_cle_cases k f with same | ⟨r, joins, release, channel, fresh, waiting⟩
    · exact .inl same
    · exact .inr ⟨r, joins, release, by rw [channel], fresh, waiting⟩
  · have differ : (talkChannel k).val ≠ d.val := fun same => other (Fin.ext same).symm
    simp [State.applyTalk_mpt, Vector.getElem_set_ne, differ]
  all_goals simp [State.applyTalk_mpt]

theorem State.onlyChannelWorked_applyListen (k : ListenId) (f : ChannelContext → Listen → Out Listen) :
    s.onlyChannelWorked (s.applyListen k f) (listenChannel k) := by
  obtain ⟨head, queue, hpt, -, mailbox⟩ := s.applyListen_reported k f
  refine ⟨by simp, by simp, by simp, by simp, by simp, by simp, by simp, fun j _ => by simp, fun j other => ?_,
    .inl (by simp), fun d other => ?_, ⟨(f (s.listenContext k) s.listen[k]).requests, ?_⟩, ?_, ?_, hpt, mailbox, head,
    queue⟩
  · exact State.applyListen_other f fun same => other (by rw [same])
  · have differ : (listenChannel k).val ≠ d.val := fun same => other (Fin.ext same).symm
    simp [State.applyListen_mpt, Vector.getElem_set_ne, differ]
  all_goals simp [State.applyListen_mpt]

/-! ### A Fill index write -/

/-- The FI a Fill index write carries: bits 4:0 (R157, R176). -/
def writtenFi (value : Word) : RingIndex := index5 (value.extractLsb' 0 5)

theorem State.fillWrite_talk (k : TalkId) (value : Word) :
    s.fillWrite (talkChannel k) value = s.applyTalk k fun ctx => Talk.fill ctx (writtenFi value) := by
  unfold State.fillWrite
  rw [splitChannel_talkChannel]
  rfl

theorem State.fillWrite_listen (k : ListenId) (value : Word) :
    s.fillWrite (listenChannel k) value = s.applyListen k fun ctx => Listen.fill ctx (writtenFi value) := by
  unfold State.fillWrite
  rw [splitChannel_listenChannel]
  rfl

theorem exec_fillIndexWrite_of_held (held : s.rstHeld = true) (c : ChannelId) (value : Word) :
    exec (.fillIndexWrite c value) s = .next s :=
  next_of_eq (if_pos held)

theorem fillWord_toNat (c : ChannelId) : (fillWord c).toNat = 14 + c.val := by
  simp only [fillWord, BitVec.toNat_ofNat]
  omega

theorem exec_fillIndexWrite_of_released (released : s.rstHeld = false) (c : ChannelId) (value : Word) :
    exec (.fillIndexWrite c value) s = .next (s.fillWrite c value) := by
  refine next_of_eq ?_
  have word := fillWord_toNat c
  have low : ¬ (fillWord c).toNat = 2 ∧ ¬ (fillWord c).toNat = 3 ∧ ¬ (4 ≤ (fillWord c).toNat ∧ (fillWord c).toNat < 8) := by
    omega
  have here : 14 ≤ (fillWord c).toNat ∧ (fillWord c).toNat < 30 := by omega
  have channel : (⟨(fillWord c).toNat - 14, by omega⟩ : ChannelId) = c := Fin.ext (by simp [word])
  unfold State.windowWrite
  simp only [released, low, here, channel, and_self, dif_pos, if_false, dif_neg, not_false_eq_true, Bool.false_eq_true]

theorem Talk.fill_done (ctx : ChannelContext) (fi : RingIndex) (t : Talk) : (t.fill ctx fi).done = false := by
  unfold Talk.fill
  split
  · rfl
  · simp [Out.andThen]

theorem Listen.fill_done (ctx : ChannelContext) (fi : RingIndex) (l : Listen) : (l.fill ctx fi).done = false := by
  unfold Listen.fill
  split
  · rfl
  · simp [Out.andThen]

theorem State.onlyChannelWorked_fillWrite (c : ChannelId) (value : Word) :
    s.onlyChannelWorked (s.fillWrite c value) c ∧ (s.fillWrite c value).mpt.outstanding = s.mpt.outstanding ∧
      (s.fillWrite c value).hpt.mailbox = s.hpt.mailbox := by
  rcases channel_cases c with ⟨k, rfl⟩ | ⟨k, rfl⟩
  · rw [State.fillWrite_talk]
    refine ⟨State.onlyChannelWorked_applyTalk k _, by rw [State.applyTalk_mpt], ?_⟩
    rw [State.applyTalk_mailbox, Talk.fill_done]
    rfl
  · rw [State.fillWrite_listen]
    refine ⟨State.onlyChannelWorked_applyListen k _, by rw [State.applyListen_mpt], ?_⟩
    rw [State.applyListen_mailbox, Listen.fill_done]
    rfl

/-! ### A response of the host bus -/

/-- The words a response carries, none with an ERROR (R144). -/
def responseWords (error : Bool) (data : Vector Word 8) : Option (List Word) := if error then none else some data.toList

theorem State.handResponse_talk {r : MemRequest} {k : TalkId} (requester : r.requester = talkChannel k) (error : Bool)
    (data : Vector Word 8) :
    s.handResponse r error data = s.applyTalk k fun ctx => Talk.response ctx (responseWords error data) := by
  unfold State.handResponse
  rw [requester, splitChannel_talkChannel]
  rfl

theorem State.handResponse_listen {r : MemRequest} {k : ListenId} (requester : r.requester = listenChannel k)
    (error : Bool) (data : Vector Word 8) :
    s.handResponse r error data = s.applyListen k fun ctx => Listen.response ctx (responseWords error data) := by
  unfold State.handResponse
  rw [requester, splitChannel_listenChannel]
  rfl

theorem State.takeResponse_of_live {r : MemRequest} {rest : List MemRequest} (outstanding : s.mpt.outstanding = r :: rest)
    (live : s.mpt.absorb = 0) (error : Bool) (data : Vector Word 8) :
    s.takeResponse error data = (s.setMpt { s.mpt with outstanding := rest }).handResponse r error data := by
  unfold State.takeResponse
  rw [outstanding]
  exact if_neg (by omega)

theorem State.onlyChannelWorked_handResponse (r : MemRequest) (error : Bool) (data : Vector Word 8) :
    s.onlyChannelWorked (s.handResponse r error data) r.requester ∧
      (s.handResponse r error data).mpt.outstanding = s.mpt.outstanding := by
  rcases channel_cases r.requester with ⟨k, requester⟩ | ⟨k, requester⟩
  · rw [State.handResponse_talk requester, requester, State.applyTalk_mpt]
    exact ⟨State.onlyChannelWorked_applyTalk k _, rfl⟩
  · rw [State.handResponse_listen requester, requester, State.applyListen_mpt]
    exact ⟨State.onlyChannelWorked_applyListen k _, rfl⟩

end

/-- Settles O48: an event at a channel, taken from the state or from the state with one place freed at the port. -/
theorem channelEventsStayInTheirChannel : Obligations.ChannelEventsStayInTheirChannel := by
  refine ⟨fun s t c value taken => ?_, fun s t r rest error data outstanding live taken => ?_⟩
  · cases held : s.rstHeld with
    | true =>
      rw [exec_fillIndexWrite_of_held held] at taken
      cases taken
      exact ⟨State.onlyChannelWorked_refl c, rfl, rfl⟩
    | false =>
      rw [exec_fillIndexWrite_of_released held] at taken
      cases taken
      exact State.onlyChannelWorked_fillWrite c value
  · rw [exec_memoryResponse, State.takeResponse_of_live outstanding live] at taken
    cases taken
    exact (s.setMpt { s.mpt with outstanding := rest }).onlyChannelWorked_handResponse r error data

/-! ## CLAIM and RELEASE (R67, R68) -/

section
variable {s : State}

theorem paramBelow_of_lt {n : Nat} {w : Word} {i : Fin n} (h : w.toNat = i.val) : paramBelow n w = some i := by
  unfold paramBelow
  rw [dif_pos (h ▸ i.isLt)]
  exact congrArg some (Fin.ext h)

theorem paramBelow_of_ge {n : Nat} {w : Word} (h : n ≤ w.toNat) : paramBelow n w = none := dif_neg (by omega)

theorem claimSlotOf_of_out {n : Nat} {w : Word} (named : w.toNat ≠ 255) (out : n ≤ w.toNat) : claimSlotOf n w = none := by
  unfold claimSlotOf
  rw [if_neg (by exact named), if_neg (by omega)]

theorem claimSlotOf_of_wanted {n : Nat} {w : Word} {wanted : Option Slot}
    (h : (w.toNat = 255 ∧ wanted = none) ∨ (∃ slot : Slot, w.toNat = slot.val ∧ slot.val < n ∧ wanted = some slot)) :
    claimSlotOf n w = some wanted := by
  unfold claimSlotOf
  rcases h with ⟨any, rfl⟩ | ⟨slot, named, used, rfl⟩
  · exact if_pos any
  · have other : ¬ w.toNat = Config.anySlot := by simp only [Config.anySlot]; omega
    rw [if_neg other, if_pos (by omega), paramBelow_of_lt named]
    rfl

theorem exec_claim_of_takes (taken : s.takes) : exec .claim s = .next (answered 9 (s.withCode 9).claimCommand) :=
  congrArg _ (State.codeWrite_of_takes taken (by decide))

theorem exec_release_of_takes (taken : s.takes) : exec .release s = .next (answered 10 (s.withCode 10).releaseCommand) :=
  congrArg _ (State.codeWrite_of_takes taken (by decide))

theorem State.claimCommand_unjoined (h : s.stc.state ≠ .joined) : s.claimCommand = (.badState, s) :=
  if_pos (by simpa using h)

theorem State.releaseCommand_unjoined (h : s.stc.state ≠ .joined) : s.releaseCommand = (.badState, s) :=
  if_pos (by simpa using h)

theorem State.claimCommand_unnamed (joined : s.stc.state = .joined)
    (h : paramBelow 8 s.hpt.params[0] = none ∨ claimSlotOf s.slots s.hpt.params[1] = none) :
    s.claimCommand = (.badParam, s) := by
  unfold State.claimCommand
  rw [if_neg (by simp [joined])]
  rcases h with channel | slot
  · rw [channel]
  · rw [slot]
    cases paramBelow 8 s.hpt.params[0] <;> rfl

theorem State.releaseCommand_unnamed (joined : s.stc.state = .joined) (h : paramBelow 8 s.hpt.params[0] = none) :
    s.releaseCommand = (.badParam, s) := by
  unfold State.releaseCommand
  rw [if_neg (by simp [joined]), h]

/-- CLAIM of a channel and slot that its parameters name (R67). -/
theorem State.claimCommand_named {k : TalkId} {wanted : Option Slot} (joined : s.stc.state = .joined)
    (channel : paramBelow 8 s.hpt.params[0] = some k) (slot : claimSlotOf s.slots s.hpt.params[1] = some wanted) :
    s.claimCommand =
      if s.talk[k].state ≠ .armed then (.channelState, s)
      else if 8 ≤ s.cle.queue.length then (.queueFull, s)
      else if s.cle.holds k then (.duplicate, s)
      else (.ok, s.joinQueue (.new .claim k wanted (s.talk[k].tag.getD 0))) := by
  unfold State.claimCommand
  rw [if_neg (by simp [joined]), channel, slot]
  exact if_congr bne_iff_ne rfl rfl

/-- RELEASE of a channel that its parameter names (R68). -/
theorem State.releaseCommand_named {k : TalkId} (joined : s.stc.state = .joined)
    (channel : paramBelow 8 s.hpt.params[0] = some k) : s.releaseCommand =
      if s.talk[k].bound = none then (.channelState, s)
      else if 8 ≤ s.cle.queue.length then (.queueFull, s)
      else if s.cle.holds k then (.duplicate, s)
      else (.ok, s.joinRelease k) := by
  unfold State.releaseCommand
  rw [if_neg (by simp [joined]), channel]
  exact if_congr Option.isNone_iff_eq_none rfl rfl

end

/-- Settles O13: the tests of R67 and R68 in their order. -/
theorem claimAndReleaseJoinTheQueue : Obligations.ClaimAndReleaseJoinTheQueue := by
  intro s taken
  rw [exec_claim_of_takes taken, exec_release_of_takes taken]
  refine ⟨fun outside => ⟨?_, ?_⟩, fun joined => ⟨fun high => ⟨?_, ?_⟩, fun named out => ?_, fun k channel => ?_⟩⟩
  · rw [State.claimCommand_unjoined (by exact outside), answered_withCode]
  · rw [State.releaseCommand_unjoined (by exact outside), answered_withCode]
  · rw [State.claimCommand_unnamed (s := s.withCode 9) joined (.inl (paramBelow_of_ge high)), answered_withCode]
  · rw [State.releaseCommand_unnamed (s := s.withCode 10) joined (paramBelow_of_ge high), answered_withCode]
  · rw [State.claimCommand_unnamed (s := s.withCode 9) joined (.inr (claimSlotOf_of_out named out)), answered_withCode]
  · have release := State.releaseCommand_named (s := s.withCode 10) joined (paramBelow_of_lt channel)
    refine ⟨fun wanted slot => ?_, fun free => ?_, fun bound full => ?_, fun bound room held => ?_,
      fun slot tag bound carried room free => ?_⟩
    · have claim := State.claimCommand_named (s := s.withCode 9) joined (paramBelow_of_lt channel)
        (claimSlotOf_of_wanted slot)
      rw [claim]
      refine ⟨fun state => ?_, fun armed full => ?_, fun armed room held => ?_, fun tag carried armed room free => ?_⟩
      · rw [if_pos (by exact state), answered_withCode]
      · rw [if_neg (by exact not_not_intro armed), if_pos (by exact full), answered_withCode]
      · rw [if_neg (by exact not_not_intro armed), if_neg (by exact not_le.mpr room), if_pos (by exact held),
          answered_withCode]
      · have unheld : ¬ (s.withCode 9).cle.holds k = true := by rw [Bool.not_eq_true]; exact free
        have own : (s.withCode 9).talk[k].tag = some tag := carried
        rw [if_neg (by exact not_not_intro armed), if_neg (by exact not_le.mpr room), if_neg unheld, own]
        rfl
    · rw [release, if_pos (by exact free), answered_withCode]
    · have kept : ¬ (s.withCode 10).talk[k].bound = none := Option.isSome_iff_ne_none.mp bound
      rw [release, if_neg kept, if_pos (by exact full), answered_withCode]
    · have kept : ¬ (s.withCode 10).talk[k].bound = none := Option.isSome_iff_ne_none.mp bound
      rw [release, if_neg kept, if_neg (by exact not_le.mpr room), if_pos (by exact held), answered_withCode]
    · have unheld : ¬ (s.withCode 10).cle.holds k = true := by rw [Bool.not_eq_true]; exact free
      have ownSlot : (s.withCode 10).talk[k].bound = some slot := bound
      have ownTag : (s.withCode 10).talk[k].tag = some tag := carried
      rw [release, if_neg (by rw [ownSlot]; nofun), if_neg (by exact not_le.mpr room), if_neg unheld, State.joinRelease, ownSlot, ownTag]
      rfl

end Sys2Proof.Machine

/-! The host's view: READ_MAP, READ_STATUS and the register window (R64, R158, R160, R175 to R177). -/

namespace Sys2Proof.Machine

/-! ## Snapshots (R160) -/

section
variable {s : State}

theorem State.copy_word (s : State) (w : Nat → Word) (i : Nat) (h : i < 40) : (s.copy w).hpt.snapshot[i] = w i := by
  rw [State.copy_hpt]
  simp

theorem exec_readMap_of_takes (taken : s.takes) : exec .readMap s = .next ((s.withCode 12).readMap.answer .ok 12) :=
  congrArg _ (State.codeWrite_of_takes taken (by decide))

theorem exec_readStatus_of_takes (taken : s.takes) :
    exec .readStatus s = .next ((s.withCode 11).readStatus.answer .ok 11) :=
  congrArg _ (State.codeWrite_of_takes taken (by decide))

theorem State.mapWord_entry (slot : Slot) : s.mapWord slot.val = s.smap.entries[slot].word s.selfId :=
  dif_pos slot.isLt

theorem State.mapWord_stamp : s.mapWord 32 = s.smap.stamp.setWidth 32 := by
  refine BitVec.eq_of_toNat_eq ?_
  simp [State.mapWord, place]

theorem State.mapWord_above {i : Nat} (h : 33 ≤ i) : s.mapWord i = 0 := by
  unfold State.mapWord
  rw [dif_neg (by omega), if_neg (by omega)]

end

/-! ## The words of the map's copy (R177) -/

section
variable {self : StationId} {tag : Tag} {owner : StationId} {rival : Option StationId} {silent mismatches remaining : Nat}

theorem tag_of_place : BitVec.ofNat 8 tag.toNat = tag := (BitVec.ofNat_toNat 8 tag).trans tag.setWidth_eq

theorem Entry.word_own (few : mismatches ≤ 1) (w : Word) (h : w = (Entry.own tag rival mismatches).word self) :
    w.extractLsb' 0 2 = 1 ∧ w.extractLsb' 8 5 = BitVec.ofNat 5 self.val ∧ w.extractLsb' 16 8 = tag ∧
      w.extractLsb' 24 4 = 0 ∧ w.getLsbD 28 = rival.isSome ∧ (w.getLsbD 29 = true ↔ mismatches = 1) := by
  have own := tag.isLt
  have present : rival.isSome.toNat < 2 := Bool.toNat_lt _
  have count : (BitVec.ofNat 1 mismatches).getLsbD 0 = true ↔ mismatches = 1 := by
    interval_cases mismatches <;> decide
  subst h
  simp (disch := omega) only [Entry.word, placeBit, getLsbD_eq_extract, BitVec.extractLsb'_or, extract_place_same,
    extract_place_below, extract_place_above, BitVec.or_zero, BitVec.zero_or, ofNat_toNat_getLsbD, tag_of_place, count]
  simp

theorem Entry.word_peer (lease : silent ≤ 7) (w : Word) (h : w = (Entry.peer owner tag silent rival).word self) :
    w.extractLsb' 0 2 = 1 ∧ w.extractLsb' 8 5 = BitVec.ofNat 5 owner.val ∧ w.extractLsb' 16 8 = tag ∧
      (w.extractLsb' 24 4).toNat = silent ∧ w.getLsbD 28 = rival.isSome ∧ w.getLsbD 29 = false := by
  have own := tag.isLt
  have present : rival.isSome.toNat < 2 := Bool.toNat_lt _
  subst h
  simp (disch := omega) only [Entry.word, placeBit, getLsbD_eq_extract, BitVec.extractLsb'_or, extract_place_same,
    extract_place_below, extract_place_above, BitVec.or_zero, BitVec.zero_or, ofNat_toNat_getLsbD, tag_of_place,
    BitVec.toNat_ofNat, Nat.mod_eq_of_lt]
  simp

theorem Entry.word_quarantine (rounds : remaining ≤ 8) (w : Word) (h : w = (Entry.quarantine remaining).word self) :
    w.extractLsb' 0 2 = 2 ∧ w.extractLsb' 8 5 = 0 ∧ w.extractLsb' 16 8 = 0 ∧ (w.extractLsb' 24 4).toNat = remaining ∧
      w.getLsbD 28 = false ∧ w.getLsbD 29 = false := by
  subst h
  simp (disch := omega) only [Entry.word, getLsbD_eq_extract, BitVec.extractLsb'_or, extract_place_same,
    extract_place_below, extract_place_above, BitVec.or_zero]
  simp
  omega

end

/-- Settles O14: a word for each entry, the stamp, and 0. -/
theorem readMapCopiesTheMap : Obligations.ReadMapCopiesTheMap := by
  intro s taken bounded
  have word : ∀ i (h : i < 40), ((s.withCode 12).readMap.answer .ok 12).hpt.snapshot[i] = s.mapWord i := fun i h =>
    State.copy_word (s.withCode 12) (s.withCode 12).mapWord i h
  refine ⟨_, exec_readMap_of_takes taken, rfl, fun i above => ?_, ?_, fun slot w hw => ?_⟩
  · exact (word i i.isLt).trans (State.mapWord_above above)
  · exact (word 32 (by decide)).trans State.mapWord_stamp
  · rw [word, State.mapWord_entry] at hw
    have bounds := bounded slot
    cases entry : s.smap.entries[slot] with
    | free => rw [entry] at hw; exact hw
    | own tag rival mismatches => rw [entry] at hw bounds; exact Entry.word_own bounds w hw
    | peer owner tag silent rival => rw [entry] at hw bounds; exact Entry.word_peer bounds w hw
    | quarantine remaining => rw [entry] at hw bounds; exact Entry.word_quarantine bounds.2 w hw

/-! ## The words of the status record (R158, R177) -/

section
variable {s : State}

theorem StationState.code_lt (x : StationState) : x.code < 8 := by cases x <;> decide
theorem Band.code_lt (b : Band) : b.code < 2 := by cases b <;> decide
theorem TalkState.code_lt (x : TalkState) : x.code < 8 := by cases x <;> decide
theorem ListenState.code_lt (x : ListenState) : x.code < 8 := by cases x <;> decide

theorem causeCode_lt (c : Option FaultCause) : (c.map FaultCause.code).getD 0 < 4 := by
  rcases c with _ | (_ | _ | _) <;> decide

theorem Band.code_bit (b : Band) : (BitVec.ofNat 1 b.code).getLsbD 0 = (b == .degraded) := by cases b <;> rfl

theorem Smap.ownCount_le (m : Smap) : m.ownCount ≤ 32 :=
  (List.length_filter_le _ _).trans (by simp)

theorem State.statusWord_station (counts : s.countsBounded) :
    ((s.statusWord 0).extractLsb' 0 3).toNat = s.stc.state.code ∧
      (s.statusWord 0).getLsbD 3 = (s.stc.band == .degraded) ∧
      ((s.statusWord 0).extractLsb' 4 2).toNat = (s.stc.cause.map FaultCause.code).getD 0 ∧
      (s.statusWord 0).getLsbD 6 = s.stc.start.isSome ∧ ((s.statusWord 0).extractLsb' 8 4).toNat = s.stc.learn ∧
      ((s.statusWord 0).extractLsb' 12 6).toNat = s.stc.windowRounds ∧
      ((s.statusWord 0).extractLsb' 18 8).toNat = s.stc.windowErrors := by
  obtain ⟨learn, -, rounds, errors, -⟩ := counts
  have state := s.stc.state.code_lt
  have band := s.stc.band.code_lt
  have cause := causeCode_lt s.stc.cause
  have start : s.stc.start.isSome.toNat < 2 := Bool.toNat_lt _
  have word : s.statusWord 0 = place s.stc.state.code 0 ||| place s.stc.band.code 3 |||
    place ((s.stc.cause.map FaultCause.code).getD 0) 4 ||| placeBit s.stc.start.isSome 6 ||| place s.stc.learn 8 |||
    place s.stc.windowRounds 12 ||| place s.stc.windowErrors 18 := rfl
  rw [word]
  simp (disch := omega) only [placeBit, getLsbD_eq_extract, BitVec.extractLsb'_or, extract_place_same,
    extract_place_below, extract_place_above, BitVec.or_zero, BitVec.zero_or, ofNat_toNat_getLsbD, BitVec.toNat_ofNat,
    Nat.mod_eq_of_lt, Band.code_bit, and_self]

theorem State.statusWord_start {r : StartRecord} (start : s.stc.start = some r) (range : r.inRange) :
    ((s.statusWord 1).extractLsb' 0 5).toNat = r.id.val ∧ ((s.statusWord 1).extractLsb' 8 2).toNat = r.shape.code ∧
      ((s.statusWord 1).extractLsb' 16 12).toNat = r.period := by
  obtain ⟨-, period, -⟩ := range
  have shape := r.shape.code_lt
  have id := r.id.isLt
  have word : s.statusWord 1 = place r.id.val 0 ||| place r.shape.code 8 ||| place r.period 16 := by
    have own : s.statusWord 1 = match s.stc.start with
      | some r => place r.id.val 0 ||| place r.shape.code 8 ||| place r.period 16
      | none => 0 := rfl
    rw [own, start]
  rw [word]
  simp (disch := omega) only [BitVec.extractLsb'_or, extract_place_same, extract_place_below, extract_place_above,
    BitVec.or_zero, BitVec.zero_or, BitVec.toNat_ofNat, Nat.mod_eq_of_lt, and_self]

theorem State.statusWord_no_start (start : s.stc.start = none) : s.statusWord 1 = 0 := by
  have own : s.statusWord 1 = match s.stc.start with
    | some r => place r.id.val 0 ||| place r.shape.code 8 ||| place r.period 16
    | none => 0 := rfl
  rw [own, start]

theorem State.statusWord_queues (events : s.eventsBounded) (claims : s.cle.queue.length ≤ 8) :
    ((s.statusWord 3).extractLsb' 0 6).toNat = s.smap.ownCount ∧
      ((s.statusWord 3).extractLsb' 8 4).toNat = s.cle.queue.length ∧
      ((s.statusWord 3).extractLsb' 16 6).toNat = s.evq.queue.length := by
  have own := s.smap.ownCount_le
  have queue : s.evq.queue.length ≤ 32 := events
  have word : s.statusWord 3 = place s.smap.ownCount 0 ||| place s.cle.queue.length 8 ||| place s.evq.queue.length 16 := rfl
  rw [word]
  simp (disch := omega) only [BitVec.extractLsb'_or, extract_place_same, extract_place_below, extract_place_above,
    BitVec.or_zero, BitVec.zero_or, BitVec.toNat_ofNat, Nat.mod_eq_of_lt, and_self]

/-- Two counts of 16 bits in one word (R177). -/
theorem extract_halves {a b : Nat} (low : a ≤ 65535) (high : b ≤ 65535) :
    ((place a 0 ||| place b 16).extractLsb' 0 16).toNat = a ∧ ((place a 0 ||| place b 16).extractLsb' 16 16).toNat = b := by
  simp (disch := omega) only [BitVec.extractLsb'_or, extract_place_same, extract_place_below, extract_place_above,
    BitVec.or_zero, BitVec.zero_or, BitVec.toNat_ofNat, Nat.mod_eq_of_lt, and_self]

theorem State.statusWord_talk (k : TalkId) : s.statusWord (6 + k.val) = s.talk[k].statusWord := by fin_cases k <;> rfl

theorem State.statusWord_sent (k : TalkId) : s.statusWord (14 + k.val) = s.talk[k].wordsSent := by fin_cases k <;> rfl

theorem State.statusWord_received (k : ListenId) : s.statusWord (26 + k.val) = s.listen[k].wordsReceived := by
  fin_cases k <;> rfl

theorem State.statusWord_above {i : Nat} (h : 34 ≤ i) : s.statusWord i = 0 := by
  unfold State.statusWord
  simp (disch := omega) only [if_neg, dif_neg]

theorem Talk.statusWord_fields (t : Talk) :
    (t.statusWord.extractLsb' 0 3).toNat = t.state.code ∧ (t.statusWord.extractLsb' 8 5).toNat = t.ring.ci.val ∧
      (t.lateCount ≤ 65535 → (t.statusWord.extractLsb' 16 16).toNat = t.lateCount) := by
  have state := t.state.code_lt
  have ci := t.ring.ci.isLt
  rw [Talk.statusWord]
  refine ⟨?_, ?_, fun late => ?_⟩ <;>
  simp (disch := omega) only [BitVec.extractLsb'_or, extract_place_same, extract_place_below, extract_place_above,
    BitVec.or_zero, BitVec.zero_or, BitVec.toNat_ofNat, Nat.mod_eq_of_lt]

/-- The half of a word, once the other half is masked out (R177). -/
theorem extract_half {a b : Word} (low : a.extractLsb' 16 16 = 0#16) :
    (a ||| b <<< 16).extractLsb' 0 16 = a.extractLsb' 0 16 ∧ (a ||| b <<< 16).extractLsb' 16 16 = b.extractLsb' 0 16 := by
  refine ⟨BitVec.eq_of_getLsbD_eq fun i hi => ?_, BitVec.eq_of_getLsbD_eq fun i hi => ?_⟩
  · simp [hi]
  · have zero : a.getLsbD (16 + i) = false := by simpa [hi] using congrArg (BitVec.getLsbD · i) low
    simp [hi, zero]
    omega

theorem extract_of_half {w : Word} {start len : Nat} (inside : start + len ≤ 16) :
    (w.extractLsb' 0 16).extractLsb' start len = w.extractLsb' start len := by
  refine BitVec.eq_of_getLsbD_eq fun i hi => ?_
  simp [hi]
  omega

theorem Listen.statusHalf_fields (l : Listen) :
    l.statusHalf.extractLsb' 16 16 = 0#16 ∧ (l.statusHalf.extractLsb' 0 3).toNat = l.state.code ∧
      l.statusHalf.extractLsb' 3 1 = BitVec.ofNat 1 l.bound.isSome.toNat ∧
      (l.statusHalf.extractLsb' 4 5).toNat = (l.bound.map Fin.val).getD 0 ∧
      (l.statusHalf.extractLsb' 9 5).toNat = l.ring.ci.val := by
  have state := l.state.code_lt
  have bound : l.bound.isSome.toNat < 2 := Bool.toNat_lt _
  have slot : (l.bound.map Fin.val).getD 0 < 32 := optionVal_lt _
  have ci := l.ring.ci.isLt
  rw [Listen.statusHalf]
  simp (disch := omega) only [placeBit, BitVec.extractLsb'_or, extract_place_same, extract_place_below,
    extract_place_above, BitVec.or_zero, BitVec.zero_or, BitVec.toNat_ofNat, Nat.mod_eq_of_lt, and_self]

/-- The two listen channels of one word, each in its half (R177). -/
theorem State.statusWord_listen (k : ListenId) :
    (s.statusWord (22 + k.val / 2)).extractLsb' (16 * (k.val % 2)) 16 = s.listen[k].statusHalf.extractLsb' 0 16 := by
  have low : ∀ j : ListenId, s.listen[j].statusHalf.extractLsb' 16 16 = 0#16 := fun j =>
    (Listen.statusHalf_fields _).1
  fin_cases k
  · exact (extract_half (low 0)).1
  · exact (extract_half (low 0)).2
  · exact (extract_half (low 2)).1
  · exact (extract_half (low 2)).2
  · exact (extract_half (low 4)).1
  · exact (extract_half (low 4)).2
  · exact (extract_half (low 6)).1
  · exact (extract_half (low 6)).2

theorem State.statusWord_half (k : ListenId) (w : BitVec 16)
    (h : w = (s.statusWord (22 + k.val / 2)).extractLsb' (16 * (k.val % 2)) 16) :
    (w.extractLsb' 0 3).toNat = s.listen[k].state.code ∧ w.getLsbD 3 = s.listen[k].bound.isSome ∧
      (w.extractLsb' 4 5).toNat = (s.listen[k].bound.map Fin.val).getD 0 ∧
      (w.extractLsb' 9 5).toNat = s.listen[k].ring.ci.val := by
  obtain ⟨-, state, bound, slot, ci⟩ := s.listen[k].statusHalf_fields
  rw [State.statusWord_listen] at h
  generalize s.listen[k].statusHalf = half at *
  subst h
  have bit : (half.extractLsb' 0 16).getLsbD 3 = (half.extractLsb' 3 1).getLsbD 0 := by simp
  rw [extract_of_half (by decide), extract_of_half (by decide), extract_of_half (by decide), bit, bound,
    ofNat_toNat_getLsbD]
  exact ⟨state, rfl, slot, ci⟩

end

/-- Settles O15: with nothing to finish, the copy of each word at its place. -/
theorem readStatusCopiesTheRecord : Obligations.ReadStatusCopiesTheRecord := by
  intro s taken settled counts events claims record
  have finished : (s.withCode 11).finishBoundary = s.withCode 11 := State.settled.finished (s := s.withCode 11) settled
  have status : (s.withCode 11).readStatus = (s.withCode 11).copy (s.withCode 11).statusWord := by
    rw [State.readStatus, finished]
  have run := exec_readStatus_of_takes taken
  rw [status] at run
  have word : ∀ i (h : i < 40), (((s.withCode 11).copy (s.withCode 11).statusWord).answer .ok 11).hpt.snapshot[i] =
      s.statusWord i := fun i h => State.copy_word (s.withCode 11) (s.withCode 11).statusWord i h
  refine ⟨_, run, rfl, ?_⟩
  have low := s.statusWord_station counts
  obtain ⟨-, -, -, -, early, claim, burst, dropped⟩ := counts
  have fourth := extract_halves dropped early
  have fifth := extract_halves claim burst
  simp only [word]
  obtain ⟨state, band, cause, start, learn, rounds, errors⟩ := low
  obtain ⟨own, queue, recorded⟩ := s.statusWord_queues events claims
  refine ⟨state, band, cause, start, learn, rounds, errors, fun r held => s.statusWord_start held (record r held),
    s.statusWord_no_start, rfl, own, queue, recorded, fourth.1, fourth.2, fifth.1, fifth.2, fun k w h => ?_,
    s.statusWord_sent, s.statusWord_half, s.statusWord_received, fun i above => ?_⟩
  · rw [State.statusWord_talk] at h
    rw [h]
    exact Talk.statusWord_fields _
  · exact (word i i.isLt).trans (State.statusWord_above above)

/-! ## The register window (R175, R176) -/

section
variable {s : State}

theorem place_zero_word (n : Nat) : place n 0 = BitVec.ofNat 32 n := by simp [place]

theorem Flags.word_fields (f : Flags) :
    f.word.getLsbD 0 = f.powerUp ∧ f.word.getLsbD 1 = f.commandLost ∧ f.word.getLsbD 2 = f.shapeMismatch ∧
      f.word.getLsbD 3 = f.lineStuck ∧ f.word.getLsbD 4 = f.eventOverflow ∧ f.word.extractLsb' 5 27 = 0 := by
  have bit : ∀ b : Bool, b.toNat < 2 := Bool.toNat_lt
  have powerUp := bit f.powerUp
  have commandLost := bit f.commandLost
  have shapeMismatch := bit f.shapeMismatch
  have lineStuck := bit f.lineStuck
  have eventOverflow := bit f.eventOverflow
  rw [Flags.word]
  simp (disch := omega) only [placeBit, getLsbD_eq_extract, BitVec.extractLsb'_or, extract_place_same,
    extract_place_below, extract_place_above, BitVec.or_zero, BitVec.zero_or, ofNat_toNat_getLsbD]
  simp

theorem State.linkWord_eq : s.linkWord = BitVec.ofNat 32 ((match s.stc.state with
    | .off => 0 | .ready => 1 | .listening => 2 | .joined => 3 | .leaving => 4 | .fault => 5) +
    (match s.stc.band with | .good => 0 | .degraded => 256)) := by
  unfold State.linkWord
  cases s.stc.state <;> cases s.stc.band <;> rfl

theorem Mailbox.word_busy (code : BitVec 8) : (Mailbox.busy code).word = BitVec.ofNat 32 (1 + 65536 * code.toNat) := by
  revert code
  decide

theorem Mailbox.word_done (result : ResultCode) (code : BitVec 8) :
    (Mailbox.done result code).word = BitVec.ofNat 32 (2 + 256 * result.code + 65536 * code.toNat) := by
  revert code
  cases result <;> decide

theorem State.windowRead_unused {index : BitVec 7} (h : 70 ≤ index.toNat) : s.windowRead index = 0 := by
  unfold State.windowRead
  simp (disch := omega) only [if_neg, dif_neg]

theorem State.windowRead_talkFi (k : TalkId) :
    s.windowRead (BitVec.ofNat 7 (14 + k.val)) = BitVec.ofNat 32 s.talk[k].ring.fi.val := by
  rw [← place_zero_word]
  fin_cases k <;> rfl

theorem State.windowRead_listenFi (k : ListenId) :
    s.windowRead (BitVec.ofNat 7 (22 + k.val)) = BitVec.ofNat 32 s.listen[k].ring.fi.val := by
  rw [← place_zero_word]
  fin_cases k <;> rfl

theorem State.windowRead_snapshot (i : Fin 40) : s.windowRead (BitVec.ofNat 7 (30 + i.val)) = s.hpt.snapshot[i] := by
  have index : (BitVec.ofNat 7 (30 + i.val)).toNat = 30 + i.val := by simp; omega
  unfold State.windowRead
  simp (disch := omega) only [index, if_neg, dif_neg]
  rw [dif_pos (by omega)]
  simp

theorem State.windowWrite_of_held (held : s.rstHeld = true) (index : BitVec 7) (value : Word) :
    s.windowWrite index value = s := if_pos held

theorem State.codeWrite_of_held (held : s.rstHeld = true) (code : BitVec 8) : s.codeWrite code = s := if_pos held

theorem State.popRecord_of_held (held : s.rstHeld = true) : s.popRecord = s := if_pos held

theorem State.windowWrite_ignored {index : BitVec 7} (value : Word)
    (h : index.toNat < 2 ∨ (8 ≤ index.toNat ∧ index.toNat < 14) ∨ 30 ≤ index.toNat) : s.windowWrite index value = s := by
  unfold State.windowWrite
  dsimp only
  split
  · rfl
  · rw [if_neg (by omega), if_neg (by omega), dif_neg (by omega), dif_neg (by omega)]

theorem State.windowWrite_param (released : s.rstHeld = false) (i : Fin 4) (value : Word) :
    s.windowWrite (BitVec.ofNat 7 (4 + i.val)) value = s.setHpt { s.hpt with params := s.hpt.params.set i value } := by
  have index : (BitVec.ofNat 7 (4 + i.val)).toNat = 4 + i.val := by simp; omega
  unfold State.windowWrite
  simp (disch := omega) only [released, index, if_neg, Bool.false_eq_true]
  rw [dif_pos (by omega)]
  simp

end

/-- Settles O18: each word's read, and the writes word by word. -/
theorem windowWritesActOnTheirWordOnly : Obligations.WindowWritesActOnTheirWordOnly := by
  refine ⟨fun s => ⟨rfl, s.linkWord_eq, s.hpt.flags.word_fields, ?_, ?_, fun i => ?_, s.windowRead_talkFi,
    s.windowRead_listenFi, ?_, s.windowRead_snapshot, fun _ => s.windowRead_unused, ?_⟩, fun s value =>
    ⟨fun released => ?_, fun released i => ?_, fun index ignored => ?_, fun held c host => ?_⟩⟩
  · change (s.hpt.code.setWidth 32).extractLsb' 0 8 = s.hpt.code
    refine BitVec.eq_of_getLsbD_eq fun i hi => ?_
    simp [hi]
    omega
  · change (s.hpt.code.setWidth 32).extractLsb' 8 24 = 0
    refine BitVec.eq_of_getLsbD_eq fun i hi => ?_
    simp
  · fin_cases i <;> rfl
  · change s.hpt.mailbox.word = _
    cases s.hpt.mailbox with
    | idle => rfl
    | busy code => exact Mailbox.word_busy code
    | done result code => cases result <;> exact Mailbox.word_done _ code
  · simp [State.hirq]
  · exact next_of_eq (if_neg (by simp [released]))
  · exact next_of_eq (State.windowWrite_param released i value)
  · exact next_of_eq (State.windowWrite_ignored value ignored)
  · rcases host with listed | ⟨code, rfl⟩ | ⟨code, rfl⟩ | ⟨channel, rfl⟩ | ⟨index, rfl⟩
    · simp only [List.mem_cons, List.not_mem_nil, or_false] at listed
      rcases listed with rfl | rfl | rfl | rfl | rfl | rfl | rfl | rfl | rfl | rfl | rfl | rfl | rfl | rfl
      iterate 12 exact next_of_eq (State.codeWrite_of_held held _)
      · exact next_of_eq (State.popRecord_of_held held)
      · exact next_of_eq (State.windowWrite_of_held held 2 value)
    · exact next_of_eq (State.codeWrite_of_held held code)
    · exact next_of_eq (State.codeWrite_of_held held code)
    · exact exec_fillIndexWrite_of_held held channel value
    · exact next_of_eq (State.windowWrite_of_held held index value)

end Sys2Proof.Machine

/-! What an event at one channel does in the part: the requests it makes and the commands OPEN, RESUME and the Fill
index write (R90, R93, R103, R107, R124). -/

namespace Sys2Proof.Machine

/-! ## The pump where the rules call for no request or for one (R93, R98, R108, R131) -/

section
variable {ctx : ChannelContext}

theorem Talk.pump_of_none {t : Talk} (h : t.nextRequest ctx = none) : t.pump ctx = Out.only t := by
  rw [Talk.pump, Config.requestLimit, Talk.pumpFor, h]

theorem Talk.pump_of_one {t : Talk} {o : Out Talk} (h : t.nextRequest ctx = some o)
    (last : o.chan.nextRequest ctx = none) : t.pump ctx = o := by
  rw [Talk.pump, Config.requestLimit, Talk.pumpFor, h]
  refine Out.andThen_of_only ?_
  rw [Talk.pumpFor, last]

theorem Listen.pump_of_none {l : Listen} (h : l.nextRequest ctx = none) : l.pump ctx = Out.only l := by
  rw [Listen.pump, Config.requestLimit, Listen.pumpFor, h]

theorem Listen.pump_of_one {l : Listen} {o : Out Listen} (h : l.nextRequest ctx = some o)
    (last : o.chan.nextRequest ctx = none) : l.pump ctx = o := by
  rw [Listen.pump, Config.requestLimit, Listen.pumpFor, h]
  refine Out.andThen_of_only ?_
  rw [Listen.pumpFor, last]

end

/-! ## The states of R106 and R123 -/

theorem Ring.count_pos_iff (r : Ring) : 0 < r.count ↔ r.ci ≠ r.fi := by
  have zero : r.count = 0 ↔ r.ci = r.fi := by
    rw [Ring.count, Fin.val_eq_zero_iff, sub_eq_zero]
    exact eq_comm
  rw [Nat.pos_iff_ne_zero, ne_eq, zero]

theorem Talk.due_eq (t : Talk) : t.due = { t with state := t.judged } := by
  have judged : (if t.state = .closed ∨ t.state = .halted then t.state else if t.bound = none then .armed
      else if t.ring.ci ≠ t.ring.fi ∨ t.staging ≠ [] ∨ t.endWait = true then .running else .starved) = t.judged := by
    unfold Talk.judged
    have walks : (if t.bound = none then TalkState.armed
        else if t.ring.ci ≠ t.ring.fi ∨ t.staging ≠ [] ∨ t.endWait = true then .running else .starved) =
        match t.bound with
        | none => .armed
        | some _ => if 0 < t.ring.count || !t.staging.isEmpty || t.endWait then .running else .starved := by
      cases t.bound with
      | none => rfl
      | some slot =>
        rw [if_neg (by simp)]
        exact if_congr (by simp [Ring.count_pos_iff, or_assoc]) rfl rfl
    cases t.state with
    | closed | halted => exact if_pos (by simp)
    | armed | running | starved => exact (if_neg (by simp)).trans walks
  rw [Talk.due, judged]

theorem Listen.due_eq (l : Listen) : l.due = { l with state := l.judged } := by
  have judged : (if l.state = .closed ∨ l.state = .halted then l.state else if l.bound = none then .waiting
      else if l.ring.ci ≠ l.ring.fi then .receiving else .starved) = l.judged := by
    unfold Listen.judged
    have walks : (if l.bound = none then ListenState.waiting
        else if l.ring.ci ≠ l.ring.fi then .receiving else .starved) =
        match l.bound with
        | none => .waiting
        | some _ => if 0 < l.ring.count then .receiving else .starved := by
      cases l.bound with
      | none => rfl
      | some slot =>
        rw [if_neg (by simp)]
        exact if_congr l.ring.count_pos_iff.symm rfl rfl
    cases l.state with
    | closed | halted => exact if_pos (by simp)
    | waiting | receiving | starved => exact (if_neg (by simp)).trans walks
  rw [Listen.due, judged]

theorem Talk.rejudge_due (ctx : ChannelContext) (t : Talk) : (t.rejudge ctx).chan = t.due := by
  rw [Talk.rejudge_chan, Talk.due_eq]

theorem Listen.rejudge_due (ctx : ChannelContext) (l : Listen) : (l.rejudge ctx).chan = l.due := by
  rw [Listen.rejudge_chan, Listen.due_eq]

/-! ## The part after an event at one channel -/

section
variable {s u : State}

/-- The requests of an event join the channel's waiting list, those that the rules call for last (R140). -/
theorem State.talkAsks_of {k : TalkId} {f : ChannelContext → Talk → Out Talk} {first : List MemRequest} {v : Talk}
    (stamp : u.stamp = s.stamp) (waiting : u.mpt.waiting = s.mpt.waiting)
    (chan : (f (s.talkContext k) u.talk[k]).chan = (Talk.pump (s.talkContext k) v).chan)
    (requests : (f (s.talkContext k) u.talk[k]).requests = first ++ (Talk.pump (s.talkContext k) v).requests) :
    s.talkAsks (u.applyTalk k f) k first v := by
  have ctx : u.talkContext k = s.talkContext k := by rw [State.talkContext, stamp]; rfl
  refine ⟨_, rfl, ?_, ?_⟩
  · rw [State.applyTalk_talk, ctx, chan]
    simp [State.talkContext]
  · rw [State.applyTalk_mpt, ctx, requests, waiting]
    simp [State.talkContext, List.append_assoc]

theorem State.listenAsks_of {k : ListenId} {f : ChannelContext → Listen → Out Listen} {first : List MemRequest} {v : Listen}
    (stamp : u.stamp = s.stamp) (waiting : u.mpt.waiting = s.mpt.waiting)
    (chan : (f (s.listenContext k) u.listen[k]).chan = (Listen.pump (s.listenContext k) v).chan)
    (requests : (f (s.listenContext k) u.listen[k]).requests = first ++ (Listen.pump (s.listenContext k) v).requests) :
    s.listenAsks (u.applyListen k f) k first v := by
  have ctx : u.listenContext k = s.listenContext k := by rw [State.listenContext, stamp]; rfl
  refine ⟨_, rfl, ?_, ?_⟩
  · rw [State.applyListen_listen, ctx, chan]
    simp [State.listenContext]
  · rw [State.applyListen_mpt, ctx, requests, waiting]
    simp [State.listenContext, List.append_assoc]

/-- An event that makes no record and asks for no RELEASE (R140, R154). -/
theorem State.applyTalk_of_silent {k : TalkId} {f : ChannelContext → Talk → Out Talk} {o : Out Talk}
    (out : f (s.talkContext k) s.talk[k] = o) (records : o.records = []) (release : o.release = false) :
    s.applyTalk k f = if o.done then ((s.setTalk k o.chan).enqueue (talkChannel k) o.requests).commandComplete
      else (s.setTalk k o.chan).enqueue (talkChannel k) o.requests := by
  unfold State.applyTalk State.carry
  dsimp only
  rw [out, records, release]
  rfl

theorem State.applyListen_of_silent {k : ListenId} {f : ChannelContext → Listen → Out Listen} {o : Out Listen}
    (out : f (s.listenContext k) s.listen[k] = o) (records : o.records = []) :
    s.applyListen k f = if o.done then ((s.setListen k o.chan).enqueue (listenChannel k) o.requests).commandComplete
      else (s.setListen k o.chan).enqueue (listenChannel k) o.requests := by
  unfold State.applyListen State.carry
  dsimp only
  rw [out, records]
  rfl

theorem State.setTalk_self (k : TalkId) : s.setTalk k s.talk[k] = s := by
  simp [State.setTalk]

theorem State.setListen_self (k : ListenId) : s.setListen k s.listen[k] = s := by
  simp [State.setListen]

/-- An event that only makes a record. -/
theorem State.applyTalk_of_record {k : TalkId} {f : ChannelContext → Talk → Out Talk} {r : EventRecord}
    (out : f (s.talkContext k) s.talk[k] = (Out.only s.talk[k]).record r) : s.applyTalk k f = s.post r := by
  unfold State.applyTalk State.carry
  dsimp only
  rw [out]
  simp only [Out.record, Out.only, List.nil_append, State.setTalk_self, State.enqueue_nil, State.postAll_cons,
    State.postAll_nil, Bool.false_eq_true, if_false]

theorem State.applyListen_of_record {k : ListenId} {f : ChannelContext → Listen → Out Listen} {r : EventRecord}
    (out : f (s.listenContext k) s.listen[k] = (Out.only s.listen[k]).record r) : s.applyListen k f = s.post r := by
  unfold State.applyListen State.carry
  dsimp only
  rw [out]
  simp only [Out.record, Out.only, List.nil_append, State.setListen_self, State.enqueue_nil, State.postAll_cons,
    State.postAll_nil, Bool.false_eq_true, if_false]

end

/-! ## Fill index writes (R90) -/

section
variable {s : State} {fi : RingIndex}

theorem Ring.fillVerdict_of_short {r : Ring} {isOpen : Bool} (opened : isOpen = true)
    (short : (fi - r.ci).val < r.taken) : r.fillVerdict isOpen fi = some .retract := by
  unfold Ring.fillVerdict
  rw [opened]
  exact if_pos short

theorem Ring.fillVerdict_of_kept {r : Ring} {isOpen : Bool} (opened : isOpen = true)
    (kept : r.taken ≤ (fi - r.ci).val) : r.fillVerdict isOpen fi = none := by
  unfold Ring.fillVerdict
  rw [opened]
  exact if_neg (not_lt.mpr kept)

theorem Talk.fill_of_closed (ctx : ChannelContext) {t : Talk} (closed : t.state = .closed) :
    t.fill ctx fi = (Out.only t).record (event .fillRejected 2 (channel := some ctx.channel)) := by
  have verdict : t.ring.fillVerdict (t.state != .closed) fi = some .closed := by simp [Ring.fillVerdict, closed]
  rw [Talk.fill, verdict]
  rfl

theorem Talk.fill_of_short (ctx : ChannelContext) {t : Talk} (opened : t.state ≠ .closed)
    (short : (fi - t.ring.ci).val < t.ring.taken) :
    t.fill ctx fi = (Out.only t).record (event .fillRejected 1 (channel := some ctx.channel)) := by
  have verdict : t.ring.fillVerdict (t.state != .closed) fi = some .retract := 
    Ring.fillVerdict_of_short (by simpa using opened) short
  rw [Talk.fill, verdict]
  rfl

theorem Talk.fill_of_kept (ctx : ChannelContext) {t : Talk} (opened : t.state ≠ .closed)
    (kept : t.ring.taken ≤ (fi - t.ring.ci).val) :
    t.fill ctx fi = (Talk.rejudge ctx { t with ring := { t.ring with fi } }).andThen (Talk.pump ctx) := by
  have verdict : t.ring.fillVerdict (t.state != .closed) fi = none := 
    Ring.fillVerdict_of_kept (by simpa using opened) kept
  rw [Talk.fill, verdict]

theorem Listen.fill_of_closed (ctx : ChannelContext) {l : Listen} (closed : l.state = .closed) :
    l.fill ctx fi = (Out.only l).record (event .fillRejected 2 (channel := some ctx.channel)) := by
  have verdict : l.ring.fillVerdict (l.state != .closed) fi = some .closed := by simp [Ring.fillVerdict, closed]
  rw [Listen.fill, verdict]
  rfl

theorem Listen.fill_of_short (ctx : ChannelContext) {l : Listen} (opened : l.state ≠ .closed)
    (short : (fi - l.ring.ci).val < l.ring.taken) :
    l.fill ctx fi = (Out.only l).record (event .fillRejected 1 (channel := some ctx.channel)) := by
  have verdict : l.ring.fillVerdict (l.state != .closed) fi = some .retract := 
    Ring.fillVerdict_of_short (by simpa using opened) short
  rw [Listen.fill, verdict]
  rfl

theorem Listen.fill_of_kept (ctx : ChannelContext) {l : Listen} (opened : l.state ≠ .closed)
    (kept : l.ring.taken ≤ (fi - l.ring.ci).val) :
    l.fill ctx fi = (Listen.rejudge ctx { l with ring := { l.ring with fi } }).andThen (Listen.pump ctx) := by
  have verdict : l.ring.fillVerdict (l.state != .closed) fi = none := 
    Ring.fillVerdict_of_kept (by simpa using opened) kept
  rw [Listen.fill, verdict]

theorem writtenFi_eq {value : Word} (h : fi.val = value.toNat % 32) : writtenFi value = fi := by
  refine Fin.ext ?_
  rw [h]
  simp [writtenFi, index5]

theorem exec_fillIndexWrite_talk {value : Word} (released : s.rstHeld = false) (h : fi.val = value.toNat % 32)
    (k : TalkId) :
    exec (.fillIndexWrite (talkChannel k) value) s = .next (s.applyTalk k fun ctx => Talk.fill ctx fi) := by
  rw [exec_fillIndexWrite_of_released released, State.fillWrite_talk, writtenFi_eq h]

theorem exec_fillIndexWrite_listen {value : Word} (released : s.rstHeld = false) (h : fi.val = value.toNat % 32)
    (k : ListenId) :
    exec (.fillIndexWrite (listenChannel k) value) s = .next (s.applyListen k fun ctx => Listen.fill ctx fi) := by
  rw [exec_fillIndexWrite_of_released released, State.fillWrite_listen, writtenFi_eq h]

end

/-- Settles O17: the two rejections, and otherwise the FI, the state it gives and the requests. -/
theorem fillIndexWritesAreJudged : Obligations.FillIndexWritesAreJudged := by
  intro s value fi released hfi
  refine ⟨fun k => ?_, fun k => ?_⟩
  · rw [exec_fillIndexWrite_talk released hfi]
    refine ⟨fun closed => ?_, fun opened short => ?_, fun opened kept => ⟨_, rfl, ?_⟩⟩
    · exact next_of_eq (State.applyTalk_of_record (Talk.fill_of_closed _ closed))
    · exact next_of_eq (State.applyTalk_of_record (Talk.fill_of_short _ opened short))
    have fill := Talk.fill_of_kept (s.talkContext k) opened kept
    have chan : (Talk.fill (s.talkContext k) fi s.talk[k]).chan =
        (Talk.pump (s.talkContext k) (Talk.due { s.talk[k] with ring := { s.talk[k].ring with fi } })).chan := by
      rw [fill, Out.andThen_chan, Talk.rejudge_due]
    have requests : (Talk.fill (s.talkContext k) fi s.talk[k]).requests =
        (Talk.pump (s.talkContext k) (Talk.due { s.talk[k] with ring := { s.talk[k].ring with fi } })).requests := by
      rw [fill, ← Talk.rejudge_due (s.talkContext k)]
      simp [Out.andThen]
    have asks : s.talkAsks (s.applyTalk k fun ctx => Talk.fill ctx fi) k []
        (Talk.due { s.talk[k] with ring := { s.talk[k].ring with fi } }) :=
      State.talkAsks_of rfl rfl chan (by rw [requests, List.nil_append])
    have now : (s.applyTalk k fun ctx => Talk.fill ctx fi).talk[k] =
        (Talk.pump (s.talkContext k) (Talk.due { s.talk[k] with ring := { s.talk[k].ring with fi } })).chan := by
      rw [State.applyTalk_talk, ← chan]
      simp
    have pumped := Talk.pump_pumped (s.talkContext k) (Talk.due { s.talk[k] with ring := { s.talk[k].ring with fi } })
    have shared := s.applyTalk_reported k fun ctx => Talk.fill ctx fi
    have mailbox : (s.applyTalk k fun ctx => Talk.fill ctx fi).hpt.mailbox = s.hpt.mailbox := by
      rw [State.applyTalk_mailbox, Talk.fill_done]
      rfl
    have cle : (s.applyTalk k fun ctx => Talk.fill ctx fi).cle = s.cle :=
      State.applyTalk_cle (by rw [fill]; simp [Out.andThen])
    rw [State.windowRead_talkFi, now]
    refine ⟨by rw [Talk.pump_fi]; rfl, asks, by rw [Talk.pump_fi]; rfl, by rw [Talk.pump_ci]; rfl,
      by rw [Talk.pump_base]; rfl, by rw [Talk.pump_position]; rfl, by rw [Talk.pump_bound]; rfl, pumped.current,
      pumped.ahead, by rw [Talk.pump_sequence]; rfl, by rw [Talk.pump_staging]; rfl, by rw [Talk.pump_wordsSent]; rfl,
      by rw [Talk.pump_lateCount]; rfl, fun starved bound more => ?_, fun j other => State.applyTalk_other _ (Ne.symm other),
      by simp, mailbox, by rw [shared.hpt], by rw [shared.hpt], by simp, by simp, cle, by simp, by simp⟩
    obtain ⟨slot, bound⟩ := Option.isSome_iff_exists.mp bound
    rw [Talk.pump_state]
    simp [-Fin.getElem_fin, Talk.due, starved, bound, more]
  · rw [exec_fillIndexWrite_listen released hfi]
    refine ⟨fun closed => ?_, fun opened short => ?_, fun opened kept => ⟨_, rfl, ?_⟩⟩
    · exact next_of_eq (State.applyListen_of_record (Listen.fill_of_closed _ closed))
    · exact next_of_eq (State.applyListen_of_record (Listen.fill_of_short _ opened short))
    have fill := Listen.fill_of_kept (s.listenContext k) opened kept
    have chan : (Listen.fill (s.listenContext k) fi s.listen[k]).chan =
        (Listen.pump (s.listenContext k) (Listen.due { s.listen[k] with ring := { s.listen[k].ring with fi } })).chan := by
      rw [fill, Out.andThen_chan, Listen.rejudge_due]
    have requests : (Listen.fill (s.listenContext k) fi s.listen[k]).requests =
        (Listen.pump (s.listenContext k)
          (Listen.due { s.listen[k] with ring := { s.listen[k].ring with fi } })).requests := by
      rw [fill, ← Listen.rejudge_due (s.listenContext k)]
      simp [Out.andThen]
    have asks : s.listenAsks (s.applyListen k fun ctx => Listen.fill ctx fi) k []
        (Listen.due { s.listen[k] with ring := { s.listen[k].ring with fi } }) :=
      State.listenAsks_of rfl rfl chan (by rw [requests, List.nil_append])
    have now : (s.applyListen k fun ctx => Listen.fill ctx fi).listen[k] =
        (Listen.pump (s.listenContext k) (Listen.due { s.listen[k] with ring := { s.listen[k].ring with fi } })).chan := by
      rw [State.applyListen_listen, ← chan]
      simp
    have pumped := Listen.pump_pumped (s.listenContext k)
      (Listen.due { s.listen[k] with ring := { s.listen[k].ring with fi } })
    have mailbox : (s.applyListen k fun ctx => Listen.fill ctx fi).hpt.mailbox = s.hpt.mailbox := by
      rw [State.applyListen_mailbox, Listen.fill_done]
      rfl
    rw [State.windowRead_listenFi, now]
    refine ⟨by rw [Listen.pump_fi]; rfl, asks, by rw [Listen.pump_fi]; rfl, by rw [Listen.pump_ci]; rfl,
      by rw [Listen.pump_position]; rfl, by rw [Listen.pump_bound]; rfl, by rw [Listen.pump_expected]; rfl,
      pumped.current, pumped.ahead, fun starved bound more => ?_,
      fun j other => State.applyListen_other _ (Ne.symm other), by simp, mailbox, by simp, by simp, by simp⟩
    obtain ⟨slot, bound⟩ := Option.isSome_iff_exists.mp bound
    rw [Listen.pump_state]
    simp [-Fin.getElem_fin, Listen.due, starved, bound, more]

end Sys2Proof.Machine

/-! OPEN_TALK, OPEN_LISTEN and RESUME (R103, R107, R118, R124, R135, R152). -/

namespace Sys2Proof.Machine

/-! ## The first fetch of a channel just opened (R87, R93) -/

section
variable (ctx : ChannelContext) (base : Word) (tag : Tag) (es : List RequestEntry) (fi : RingIndex)

/-- A talk channel just opened, before its first fetch (R107). -/
def Talk.fresh : Talk :=
  { Talk.clear with requests := es, ring := Ring.opened base fi, state := .armed, tag := some tag }

/-- A listen channel just opened, before its first fetch (R124). -/
def Listen.fresh : Listen :=
  { Listen.clear with requests := es, ring := Ring.opened base fi, state := .waiting, tag := some tag }

/-- The list entry of the first fetch (R93). -/
def firstFetch : RequestEntry :=
  { purpose := .descFetch, stale := false, index := 0, words := 2, ok := false, event := false }

/-- The first fetch's memory request (R93, R139). -/
def firstRequest : MemRequest :=
  { purpose := .descFetch, address := base, words := 2, requester := ctx.channel, data := [] }

theorem Ring.opened_address : (Ring.opened base fi).descriptorAddress (Ring.opened base fi).ci = base := by
  simp [Ring.opened, Ring.descriptorAddress]

variable {fi}

theorem Talk.fresh_pump_empty : (Talk.fresh base tag es 0).pump ctx = Out.only (Talk.fresh base tag es 0) :=
  Talk.pump_of_none (by
    unfold Talk.nextRequest
    split
    · rfl
    · rfl)

theorem Talk.fresh_wantsCurrent (filled : fi ≠ 0) : (Talk.fresh base tag es fi).wantsCurrent = true := by
  have count : 0 < fi.val := Nat.pos_of_ne_zero fun zero => filled (Fin.ext zero)
  simp [Talk.fresh, ChannelCore.wantsCurrent, Ring.opened, Ring.taken, Ring.count, count]

theorem Talk.fresh_pump (filled : fi ≠ 0) (place : es.length < 16) : (Talk.fresh base tag es fi).pump ctx =
    { Out.only { Talk.fresh base tag es fi with
        requests := es ++ [firstFetch], ring := { Ring.opened base fi with current := some .fetching } } with
      requests := [firstRequest ctx base] } := by
  refine Talk.pump_of_one ?_ ?_
  · unfold Talk.nextRequest
    rw [if_neg (by simp [Talk.fresh, Talk.walks]; exact decide_eq_false (Nat.not_le.mpr place)),
      if_pos (Talk.fresh_wantsCurrent base tag es filled)]
    simp [Talk.withCore, Out.mapChan, ChannelCore.fetchCurrent, ChannelCore.fetch, ChannelCore.request, Talk.fresh,
      Ring.opened, Ring.descriptorAddress, Out.only, firstFetch, firstRequest]
  · simp [Talk.nextRequest, ChannelCore.wantsCurrent, ChannelCore.liveFetch, ChannelCore.wantsAhead, firstFetch,
      Talk.fresh, Talk.clear, Talk.readTarget, Talk.nextAhead, heldOf]

theorem Listen.fresh_pump_empty : (Listen.fresh base tag es 0).pump ctx = Out.only (Listen.fresh base tag es 0) :=
  Listen.pump_of_none (by
    unfold Listen.nextRequest
    split
    · rfl
    · rfl)

theorem Listen.fresh_wantsCurrent (filled : fi ≠ 0) : (Listen.fresh base tag es fi).wantsCurrent = true := by
  have count : 0 < fi.val := Nat.pos_of_ne_zero fun zero => filled (Fin.ext zero)
  simp [Listen.fresh, ChannelCore.wantsCurrent, Ring.opened, Ring.taken, Ring.count, count]

theorem Listen.fresh_pump (filled : fi ≠ 0) (place : es.length < 16) : (Listen.fresh base tag es fi).pump ctx =
    { Out.only { Listen.fresh base tag es fi with
        requests := es ++ [firstFetch], ring := { Ring.opened base fi with current := some .fetching } } with
      requests := [firstRequest ctx base] } := by
  refine Listen.pump_of_one ?_ ?_
  · unfold Listen.nextRequest
    rw [if_neg (by simp [Listen.fresh, Listen.walks]; exact decide_eq_false (Nat.not_le.mpr place)),
      if_pos (Listen.fresh_wantsCurrent base tag es filled)]
    simp [Listen.withCore, Out.mapChan, ChannelCore.fetchCurrent, ChannelCore.fetch, ChannelCore.request, Listen.fresh,
      Ring.opened, Ring.descriptorAddress, Out.only, firstFetch, firstRequest]
  · simp [Listen.nextRequest, ChannelCore.wantsCurrent, ChannelCore.liveFetch, ChannelCore.wantsAhead, firstFetch,
      Listen.fresh, Listen.clear, Listen.writeTarget, Listen.nextAhead, heldOf]

end

/-! ## OPEN's parameters (R107, R124, R177) -/

theorem openParamsOf_of_bad {params : Vector Word 4}
    (h : 8 ≤ params[0].toNat ∨ params[1].toNat = 0 ∨ 256 ≤ params[1].toNat ∨ params[2].toNat % 512 ≠ 0 ∨
      32 ≤ params[3].toNat) : openParamsOf params = none := by
  unfold openParamsOf
  split
  · rename_i channel tag fi named tagged filled
    unfold paramBelow at named tagged filled
    split at named <;> [split at tagged <;> [split at filled; skip]; skip]
    case isTrue.isTrue.isTrue channelRange tagRange fiRange =>
      cases tagged
      refine if_neg fun valid => ?_
      simp only [Bool.and_eq_true, bne_iff_ne, beq_iff_eq] at valid
      omega
    all_goals contradiction
  · rfl

theorem openParamsOf_of_good {params : Vector Word 4} {k : Fin 8} {tag : Tag} {fi : RingIndex}
    (channel : params[0].toNat = k.val) (tagged : params[1].toNat = tag.toNat) (present : tag ≠ 0)
    (base : params[2].toNat % 512 = 0) (filled : params[3].toNat = fi.val) :
    openParamsOf params = some { channel := k, tag, base := params[2], fi } := by
  have number : paramBelow 256 params[1] = some ⟨tag.toNat, tag.isLt⟩ := paramBelow_of_lt tagged
  have nonzero : tag.toNat ≠ 0 := fun zero => present (BitVec.eq_of_toNat_eq zero)
  have same : BitVec.ofNat 8 tag.toNat = tag := tag_of_place
  unfold openParamsOf
  rw [paramBelow_of_lt channel, number, paramBelow_of_lt filled]
  dsimp only
  rw [if_pos (by simp [nonzero, base]), same]

/-! ## OPEN_TALK and OPEN_LISTEN -/

section
variable {s : State}

theorem exec_openTalk_of_takes (taken : s.takes) :
    exec .openTalk s = .next (answered 5 (s.withCode 5).openTalkCommand) :=
  congrArg _ (State.codeWrite_of_takes taken (by decide))

theorem exec_openListen_of_takes (taken : s.takes) :
    exec .openListen s = .next (answered 6 (s.withCode 6).openListenCommand) :=
  congrArg _ (State.codeWrite_of_takes taken (by decide))

theorem StationState.opens_of_off {x : StationState} (h : x = .off ∨ x = .leaving ∨ x = .fault) : x.opens = false := by
  rcases h with rfl | rfl | rfl <;> rfl

theorem StationState.opens_of_link {x : StationState} (h : x = .ready ∨ x = .listening ∨ x = .joined) :
    x.opens = true := by
  rcases h with rfl | rfl | rfl <;> rfl

theorem State.openTalkCommand_of_bad (opens : s.stc.state.opens = true) (bad : openParamsOf s.hpt.params = none) :
    s.openTalkCommand = (.badParam, s) := by
  unfold State.openTalkCommand
  rw [opens, bad]
  rfl

theorem State.openListenCommand_of_bad (opens : s.stc.state.opens = true) (bad : openParamsOf s.hpt.params = none) :
    s.openListenCommand = (.badParam, s) := by
  unfold State.openListenCommand
  rw [opens, bad]
  rfl

theorem State.openTalkCommand_of_good {p : OpenParams} (opens : s.stc.state.opens = true)
    (good : openParamsOf s.hpt.params = some p) : s.openTalkCommand =
      if s.talk[p.channel].state ≠ .closed then (.channelState, s)
      else (.ok, s.applyTalk p.channel fun ctx => Talk.opened ctx p) := by
  unfold State.openTalkCommand
  rw [if_neg (by simp [opens]), good]
  exact if_congr bne_iff_ne rfl rfl

theorem State.openListenCommand_of_good {p : OpenParams} (opens : s.stc.state.opens = true)
    (good : openParamsOf s.hpt.params = some p) : s.openListenCommand =
      if s.listen[p.channel].state ≠ .closed then (.channelState, s)
      else (.ok, s.applyListen p.channel fun ctx => Listen.opened ctx p) := by
  unfold State.openListenCommand
  rw [if_neg (by simp [opens]), good]
  exact if_congr bne_iff_ne rfl rfl

end

/-- Settles O8: the tests in their order, and the first fetch where the count is above 0. -/
theorem openTalkArmsTheChannel : Obligations.OpenTalkArmsTheChannel := by
  intro s taken
  rw [exec_openTalk_of_takes taken]
  refine ⟨fun outside => ?_, fun link => ⟨fun bad => ?_, fun k tag fi channel tagged present base filled => ?_⟩⟩
  · have closed : (s.withCode 5).stc.state.opens = false := StationState.opens_of_off outside
    rw [State.openTalkCommand, closed]
    rfl
  · rw [State.openTalkCommand_of_bad (s := s.withCode 5) (StationState.opens_of_link link) (openParamsOf_of_bad bad),
      answered_withCode]
  · rw [State.openTalkCommand_of_good (s := s.withCode 5) (StationState.opens_of_link link)
      (openParamsOf_of_good channel tagged present base filled)]
    refine ⟨fun busy => ?_, fun closed empty => ?_, fun closed count place => ?_⟩
    · rw [if_pos (by exact busy), answered_withCode]
    · subst empty
      have opened := Talk.fresh_pump_empty ((s.withCode 5).talkContext k) s.hpt.params[2] tag s.talk[k].requests
      rw [if_neg (by exact not_not_intro closed), State.applyTalk_only opened]
      rfl
    · have opened := Talk.fresh_pump ((s.withCode 5).talkContext k) s.hpt.params[2] tag s.talk[k].requests count place
      rw [if_neg (by exact not_not_intro closed), State.applyTalk_of_silent opened rfl rfl]
      rfl

/-- Settles O9: the tests in their order, and the first fetch where the count is above 0. -/
theorem openListenWaitsForItsTag : Obligations.OpenListenWaitsForItsTag := by
  intro s taken
  rw [exec_openListen_of_takes taken]
  refine ⟨fun outside => ?_, fun link => ⟨fun bad => ?_, fun k tag fi channel tagged present base filled => ?_⟩⟩
  · have closed : (s.withCode 6).stc.state.opens = false := StationState.opens_of_off outside
    rw [State.openListenCommand, closed]
    rfl
  · rw [State.openListenCommand_of_bad (s := s.withCode 6) (StationState.opens_of_link link) (openParamsOf_of_bad bad),
      answered_withCode]
  · rw [State.openListenCommand_of_good (s := s.withCode 6) (StationState.opens_of_link link)
      (openParamsOf_of_good channel tagged present base filled)]
    refine ⟨fun busy => ?_, fun closed empty => ?_, fun closed count place => ?_⟩
    · rw [if_pos (by exact busy), answered_withCode]
    · subst empty
      have opened := Listen.fresh_pump_empty ((s.withCode 6).listenContext k) s.hpt.params[2] tag s.listen[k].requests
      rw [if_neg (by exact not_not_intro closed), State.applyListen_only opened]
      rfl
    · have opened := Listen.fresh_pump ((s.withCode 6).listenContext k) s.hpt.params[2] tag s.listen[k].requests count
        place
      rw [if_neg (by exact not_not_intro closed), State.applyListen_of_silent opened rfl]
      rfl

/-! ## RESUME (R103) -/

section
variable {s : State}

theorem exec_resume_of_takes (taken : s.takes) : exec .resume s = .next ((s.withCode 8).resumeCommand 8) :=
  congrArg _ (State.codeWrite_of_takes taken (by decide))

/-- The state in which a command that waits for its channel leaves the mailbox (R154). -/
def State.busy (s : State) (code : BitVec 8) : State := s.setMailbox (.busy code)

theorem State.resumeCommand_out {code : BitVec 8} (high : 16 ≤ s.hpt.params[0].toNat) :
    s.resumeCommand code = s.answer .badParam code := by
  unfold State.resumeCommand
  rw [paramBelow_of_ge high]

theorem State.resumeCommand_talk {code : BitVec 8} {k : TalkId} (named : s.hpt.params[0].toNat = k.val) :
    s.resumeCommand code = if s.talk[k].state ≠ .halted then s.answer .channelState code
      else if s.inLink then (s.busy code).setTalk k { s.talk[k] with resumeWaits := true }
      else ((s.busy code).setTalk k { s.talk[k] with resumeWaits := true }).applyTalk k Talk.resumed := by
  have channel : paramBelow 16 s.hpt.params[0] = some (talkChannel k) := paramBelow_of_lt named
  unfold State.resumeCommand
  rw [channel]
  dsimp only
  rw [splitChannel_talkChannel]
  exact if_congr bne_iff_ne rfl rfl

theorem State.resumeCommand_listen {code : BitVec 8} {k : ListenId} (named : s.hpt.params[0].toNat = k.val + 8) :
    s.resumeCommand code = if s.listen[k].state ≠ .halted then s.answer .channelState code
      else if s.inLink then (s.busy code).setListen k { s.listen[k] with resumeWaits := true }
      else ((s.busy code).setListen k { s.listen[k] with resumeWaits := true }).applyListen k Listen.resumed := by
  have channel : paramBelow 16 s.hpt.params[0] = some (listenChannel k) := paramBelow_of_lt named
  unfold State.resumeCommand
  rw [channel]
  dsimp only
  rw [splitChannel_listenChannel]
  exact if_congr bne_iff_ne rfl rfl

/-- A talk channel with a RESUME that waits (R103). -/
def Talk.resuming (t : Talk) : Talk := { t with resumeWaits := true }

/-- A talk channel that has left HALTED (R103, R118). -/
def Talk.unhalted (t : Talk) : Talk := { t with state := .armed, haltCause := none, resumeWaits := false }

/-- A listen channel with a RESUME that waits (R103). -/
def Listen.resuming (l : Listen) : Listen := { l with resumeWaits := true }

/-- A listen channel that has left HALTED (R103, R135). -/
def Listen.unhalted (l : Listen) : Listen :=
  { l with state := .waiting, haltCause := none, bound := none, resumeWaits := false }

/-- An unbound HALTED channel leaves HALTED ARMED, and walks its ring (R103). -/
theorem Talk.resumed_of_unbound (ctx : ChannelContext) {t : Talk} (halted : t.state = .halted) (unbound : t.bound = none) :
    t.resuming.resumed ctx = { t.unhalted.pump ctx with done := true } := by
  have armed : t.unhalted.rejudge ctx = Out.only t.unhalted := by
    simp [Talk.rejudge, Talk.judged, Talk.unhalted, unbound]
  have resumed : t.resuming.resumed ctx = { (t.unhalted.rejudge ctx).andThen (Talk.pump ctx) with done := true } := by
    unfold Talk.resumed
    rw [if_pos (by simpa [Talk.resuming] using halted)]
    rfl
  rw [resumed, armed, Out.only_andThen]

theorem Listen.resumed_of_halted (ctx : ChannelContext) {l : Listen} (halted : l.state = .halted) :
    l.resuming.resumed ctx = { l.unhalted.pump ctx with done := true } := by
  unfold Listen.resumed
  rw [if_pos (by simpa [Listen.resuming] using halted)]
  rfl

theorem State.setTalk_get (k : TalkId) (t : Talk) : (s.setTalk k t).talk[k] = t := by
  simp

theorem State.setListen_get (k : ListenId) (l : Listen) : (s.setListen k l).listen[k] = l := by
  simp

theorem State.setTalk_get_other {j k : TalkId} (other : j ≠ k) (t : Talk) : (s.setTalk k t).talk[j] = s.talk[j] := by
  have differ : k.val ≠ j.val := fun e => other (Fin.ext e.symm)
  simp [Vector.getElem_set_ne, differ]

theorem State.setListen_get_other {j k : ListenId} (other : j ≠ k) (l : Listen) :
    (s.setListen k l).listen[j] = s.listen[j] := by
  have differ : k.val ≠ j.val := fun e => other (Fin.ext e.symm)
  simp [Vector.getElem_set_ne, differ]

end

/-- Settles O12: the tests, the wait for the boundary on the link, and the requests off it. -/
theorem resumeLeavesHalted : Obligations.ResumeLeavesHalted := by
  intro s taken
  rw [exec_resume_of_takes taken]
  refine ⟨fun high => ?_, fun k named => ?_, fun k named => ?_⟩
  · rw [State.resumeCommand_out (s := s.withCode 8) high]
    rfl
  · rw [State.resumeCommand_talk (s := s.withCode 8) named]
    refine ⟨fun other => next_of_eq (if_pos other), fun halted link => ?_, fun halted off unbound => ?_⟩
    · rw [if_neg (by exact not_not_intro halted), if_pos (by exact link)]
      rfl
    · rw [if_neg (by exact not_not_intro halted), if_neg (by rw [Bool.not_eq_true]; exact off)]
      have out := Talk.resumed_of_unbound (s.talkContext k) halted unbound
      have own : (((s.withCode 8).busy 8).setTalk k s.talk[k].resuming).talk[k] = s.talk[k].resuming :=
        State.setTalk_get k _
      refine ⟨(((s.withCode 8).busy 8).setTalk k s.talk[k].resuming).applyTalk k Talk.resumed, rfl, ?_⟩
      have asks : s.talkAsks ((((s.withCode 8).busy 8).setTalk k s.talk[k].resuming).applyTalk k Talk.resumed) k []
          s.talk[k].unhalted :=
        State.talkAsks_of (by rfl) (by rfl) (by rw [own, out]) (by rw [own, out]; rfl)
      have applied := State.applyTalk_of_silent (s := ((s.withCode 8).busy 8).setTalk k s.talk[k].resuming) (k := k)
        (f := Talk.resumed) (o := { s.talk[k].unhalted.pump (s.talkContext k) with done := true })
        (by rw [own]; exact out) (Talk.pump_records _ _) (Talk.pump_release _ _)
      rw [if_pos rfl] at applied
      obtain ⟨u, hu, chan, -⟩ := id asks
      refine ⟨?_, ?_, ?_, ?_, asks, fun j other => ?_, ?_, ?_, ?_, ?_, ?_⟩
      · rw [applied]
        rfl
      · rw [chan, hu, Talk.pump_state]
        rfl
      · rw [chan, hu, Talk.pump_haltCause]
        rfl
      · rw [chan, hu, Talk.pump_ci]
        rfl
      · rw [State.applyTalk_other _ (Ne.symm other), State.setTalk_get_other other]
        rfl
      · rw [State.applyTalk_listen]
        rfl
      · rw [applied, State.commandComplete_evq]
        rfl
      · rw [State.applyTalk_stc]
        rfl
      · rw [State.applyTalk_smap]
        rfl
      · rw [applied, State.commandComplete_cle]
        rfl
  · rw [State.resumeCommand_listen (s := s.withCode 8) named]
    refine ⟨fun other => next_of_eq (if_pos other), fun halted link => ?_, fun halted off => ?_⟩
    · rw [if_neg (by exact not_not_intro halted), if_pos (by exact link)]
      rfl
    · rw [if_neg (by exact not_not_intro halted), if_neg (by rw [Bool.not_eq_true]; exact off)]
      have out := Listen.resumed_of_halted (s.listenContext k) halted
      have own : (((s.withCode 8).busy 8).setListen k s.listen[k].resuming).listen[k] = s.listen[k].resuming :=
        State.setListen_get k _
      refine ⟨(((s.withCode 8).busy 8).setListen k s.listen[k].resuming).applyListen k Listen.resumed, rfl, ?_⟩
      have asks : s.listenAsks ((((s.withCode 8).busy 8).setListen k s.listen[k].resuming).applyListen k Listen.resumed) k
          [] s.listen[k].unhalted :=
        State.listenAsks_of (by rfl) (by rfl) (by rw [own, out]) (by rw [own, out]; rfl)
      have applied := State.applyListen_of_silent (s := ((s.withCode 8).busy 8).setListen k s.listen[k].resuming) (k := k)
        (f := Listen.resumed) (o := { s.listen[k].unhalted.pump (s.listenContext k) with done := true })
        (by rw [own]; exact out) (Listen.pump_records _ _)
      rw [if_pos rfl] at applied
      obtain ⟨u, hu, chan, -⟩ := id asks
      refine ⟨?_, ?_, ?_, ?_, ?_, asks, fun j other => ?_, ?_, ?_, ?_, ?_, ?_⟩
      · rw [applied]
        rfl
      · rw [chan, hu, Listen.pump_state]
        rfl
      · rw [chan, hu, Listen.pump_haltCause]
        rfl
      · rw [chan, hu, Listen.pump_bound]
        rfl
      · rw [chan, hu, Listen.pump_ci]
        rfl
      · rw [State.applyListen_other _ (Ne.symm other), State.setListen_get_other other]
        rfl
      · rw [State.applyListen_talk]
        rfl
      · rw [applied, State.commandComplete_evq]
        rfl
      · rw [State.applyListen_stc]
        rfl
      · rw [State.applyListen_smap]
        rfl
      · rw [State.applyListen_cle]
        rfl

end Sys2Proof.Machine

/-! The writebacks of a ring, and CLOSE (R86, R97, R102, R104, R119, R120, R137, R138). -/

namespace Sys2Proof.Machine

/-! ## Writebacks (R86, R98) -/

/-- The list entry of a writeback (R99). -/
def writebackEntry (index : RingIndex) (result : WritebackResult) (event : Bool) : RequestEntry :=
  { purpose := .writeback, stale := false, index, words := 2, ok := result == .ok, event }

/-- The memory request of a writeback (R86, R139). -/
def Ring.writebackRequest (r : Ring) (ctx : ChannelContext) (index : RingIndex) (data : List Word) : MemRequest :=
  { purpose := .writeback, address := r.base + BitVec.ofNat 32 (16 * index.val) + 8#32, words := 2,
    requester := ctx.channel, data }

section
variable (ctx : ChannelContext) (c : ChannelCore) (sequence : Option (BitVec 4))

/-- The words of a writeback (R86, R174); the sequence is present only with words transferred. -/
def completionWords (result : WritebackResult) (transferred : Nat) : List Word :=
  [completionWord2 result transferred, completionWord3 ctx.stamp (if transferred = 0 then none else sequence)]

theorem ChannelCore.writeback_eq (index : RingIndex) (result : WritebackResult) (n : Nat) (event : Bool) :
    c.writeback ctx index result n event sequence =
      { Out.only { c with requests := c.requests ++ [writebackEntry index result event] } with
        requests := [c.ring.writebackRequest ctx index (completionWords ctx sequence result n)] } := rfl

/-- The entries of the list once the fetches and data requests are stale (R102, R104, R109). -/
def staleEntries (es : List RequestEntry) : List RequestEntry := markStale RequestEntry.isStalable es

theorem staleEntries_eq (es : List RequestEntry) :
    staleEntries es = es.map fun e => { e with stale := e.stale || e.purpose != .writeback } := by
  refine List.map_congr_left fun e _ => ?_
  cases stalable : e.isStalable with
  | true =>
    have other : (e.purpose != .writeback) = true := stalable
    simp [other]
  | false =>
    have other : (e.purpose != .writeback) = false := stalable
    simp [other]

theorem staleEntries_stale {es : List RequestEntry} {x : RequestEntry} (mem : x ∈ staleEntries es)
    (other : x.purpose ≠ .writeback) : x.stale = true := by
  rw [staleEntries_eq] at mem
  obtain ⟨e, -, rfl⟩ := List.mem_map.mp mem
  simpa using .inr other

variable {c}

theorem eventOf_of_held {t : Option Taken} {d : Descriptor} (held : heldOf t = some d) : eventOf t = d.event := by
  rcases t with _ | (_ | _ | _ | _ | _) <;> cases held
  rfl

/-- A CLOSE of a ring whose current has words done (R104). -/
theorem ChannelCore.close_of_used {d : Descriptor} (held : heldOf c.ring.current = some d) (used : 0 < c.ring.position) :
    c.close ctx sequence =
      { Out.only { ring := c.ring.passed
                   requests := staleEntries c.requests ++ [writebackEntry c.ring.ci .partialUse d.event] } with
        requests := [c.ring.writebackRequest ctx c.ring.ci
          (completionWords ctx sequence .partialUse c.ring.position)] } := by
  unfold ChannelCore.close
  dsimp only
  rw [if_pos (by simp [held, used]), eventOf_of_held held]
  rfl

/-- A CLOSE of a ring without words to write back (R104). -/
theorem ChannelCore.close_of_unused (unused : heldOf c.ring.current = none ∨ c.ring.position = 0) :
    c.close ctx sequence = Out.only { ring := c.ring.emptied, requests := staleEntries c.requests } := by
  unfold ChannelCore.close
  dsimp only
  rw [if_neg (by rcases unused with h | h <;> simp [h])]
  rfl

variable (c)

/-- What a CLOSE leaves of a ring, used or not (R104). -/
structure ChannelCore.Closes (o : Out ChannelCore) : Prop where
  current : o.chan.ring.current = none
  ahead : o.chan.ring.ahead = none
  position : o.chan.ring.position = 0
  base : o.chan.ring.base = c.ring.base
  fi : o.chan.ring.fi = c.ring.fi
  stale : ∀ x ∈ o.chan.requests, x.purpose ≠ .writeback → x.stale = true
  records : o.records = []
  release : o.release = false

theorem ChannelCore.closes_close : c.Closes (c.close ctx sequence) := by
  by_cases unused : heldOf c.ring.current = none ∨ c.ring.position = 0
  · rw [ChannelCore.close_of_unused ctx sequence unused]
    exact ⟨rfl, rfl, rfl, rfl, rfl, fun x => staleEntries_stale, rfl, rfl⟩
  · obtain ⟨held, used⟩ := not_or.mp unused
    obtain ⟨d, held⟩ := Option.ne_none_iff_exists'.mp held
    rw [ChannelCore.close_of_used ctx sequence held (Nat.pos_of_ne_zero used)]
    refine ⟨rfl, rfl, rfl, rfl, rfl, fun x mem other => ?_, rfl, rfl⟩
    rcases List.mem_append.mp mem with old | new
    · exact staleEntries_stale old other
    · rw [List.mem_singleton.mp new] at other
      exact absurd rfl other

end

/-! ## CLOSE of a talk channel (R104, R119, R120) -/

/-- A talk channel whose CLOSE has completed, with what its ring is left as (R120). -/
def Talk.closedAs (t : Talk) (c : ChannelCore) : Talk :=
  { t with
    toChannelCore := c, state := .closed, tag := none, bound := none, staging := [], readPoint := none, onLine := none
    sequence := none, endWait := false, closeTaken := false, haltCause := none, heldHalts := [] }

theorem Talk.closeComplete_eq (ctx : ChannelContext) (t : Talk) : t.closeComplete ctx =
    { (t.toChannelCore.close ctx none).mapChan t.closedAs with done := true } := rfl

section
variable {s : State}

theorem exec_close_of_takes (taken : s.takes) : exec .close s = .next ((s.withCode 7).closeCommand 7) :=
  congrArg _ (State.codeWrite_of_takes taken (by decide))

theorem State.closeCommand_out {code : BitVec 8} (high : 16 ≤ s.hpt.params[0].toNat) :
    s.closeCommand code = s.answer .badParam code := by
  unfold State.closeCommand
  rw [paramBelow_of_ge high]

theorem State.closeCommand_talk {code : BitVec 8} {k : TalkId} (named : s.hpt.params[0].toNat = k.val) :
    s.closeCommand code = if s.talk[k].state = .closed then s.answer .channelState code
      else (s.busy code).closeTalk k := by
  have channel : paramBelow 16 s.hpt.params[0] = some (talkChannel k) := paramBelow_of_lt named
  unfold State.closeCommand
  rw [channel]
  dsimp only
  rw [splitChannel_talkChannel]
  exact if_congr beq_iff_eq rfl rfl

theorem State.closeCommand_listen {code : BitVec 8} {k : ListenId} (named : s.hpt.params[0].toNat = k.val + 8) :
    s.closeCommand code = if s.listen[k].state = .closed then s.answer .channelState code
      else (s.busy code).closeListen k := by
  have channel : paramBelow 16 s.hpt.params[0] = some (listenChannel k) := paramBelow_of_lt named
  unfold State.closeCommand
  rw [channel]
  dsimp only
  rw [splitChannel_listenChannel]
  exact if_congr beq_iff_eq rfl rfl

/-- A talk channel with a CLOSE taken (R119). -/
def Talk.closing (t : Talk) : Talk := { t with closeTaken := true }

/-- A CLOSE taken for a talk channel, with the abandon request of its slot (R45, R119). -/
def State.closingTalk (s : State) (k : TalkId) : State := (s.setTalk k s.talk[k].closing).abandonBound k

theorem State.closeNotice_inLink (k : TalkId) : (s.closeNotice k).inLink = s.inLink := by
  have same : (s.closeNotice k).stc = s.stc := by
    unfold State.closeNotice State.endRequest
    split
    · rfl
    · split
      · rfl
      · split
        · rfl
        · rw [State.post_stc]
          rfl
  rw [State.inLink, same]
  rfl

theorem State.abandonBound_inLink (k : TalkId) : (s.abandonBound k).inLink = s.inLink := by
  unfold State.abandonBound
  split
  · split <;> rfl
  · rfl

theorem State.closingTalk_inLink (k : TalkId) : (s.closingTalk k).inLink = s.inLink := State.abandonBound_inLink k

theorem State.closeTalk_link {k : TalkId} (link : s.inLink = true) : s.closeTalk k = (s.closingTalk k).closeNotice k := by
  have on : ((s.closingTalk k).closeNotice k).inLink = true := by
    rw [State.closeNotice_inLink, State.closingTalk_inLink, link]
  exact (State.closeTalk_eq s k).trans (if_pos on)

theorem State.closeTalk_off {k : TalkId} (off : s.inLink = false) :
    s.closeTalk k = ((s.closingTalk k).closeNotice k).applyTalk k Talk.closeComplete := by
  have without : ¬ ((s.closingTalk k).closeNotice k).inLink = true := by
    rw [State.closeNotice_inLink, State.closingTalk_inLink, off]
    decide
  exact (State.closeTalk_eq s k).trans (if_neg without)

theorem State.closingTalk_eq (k : TalkId) : s.closingTalk k = { s with
    talk := s.talk.set k s.talk[k].closing
    smap := { s.smap with abandon :=
      match s.talk[k].bound with
      | some slot => if s.smap.abandon.contains slot then s.smap.abandon else s.smap.abandon ++ [slot]
      | none => s.smap.abandon } } := by
  have bound : (s.setTalk k s.talk[k].closing).talk[k].bound = s.talk[k].bound := by
    rw [State.setTalk_get]
    rfl
  unfold State.closingTalk State.abandonBound
  rw [bound]
  cases s.talk[k].bound with
  | none => rfl
  | some slot =>
    change (if s.smap.abandon.contains slot then _ else _) = _
    dsimp only
    split <;> rfl

theorem State.closeNotice_none {k : TalkId} (none : s.cle.requestOf k = none) : s.closeNotice k = s := by
  unfold State.closeNotice
  rw [none]

theorem State.closeNotice_won {k : TalkId} {r : ClaimRequest} (held : s.cle.requestOf k = some r)
    (won : r.phase = .sentWon) : s.closeNotice k = s := by
  unfold State.closeNotice
  rw [held]
  exact if_pos (by simp [won])

theorem State.closeNotice_line {k : TalkId} {r : ClaimRequest} (held : s.cle.requestOf k = some r)
    (waiting : r.phase = .waiting) (line : s.cle.onLine = some k) : s.closeNotice k =
      s.setCle { s.cle with lineEnds := s.cle.lineEnds.orElse fun _ => some .closed } := by
  unfold State.closeNotice
  rw [held]
  exact (if_neg (by simp [waiting])).trans (if_pos (by simp [line]))

theorem State.closeNotice_waits {k : TalkId} {r : ClaimRequest} (held : s.cle.requestOf k = some r)
    (waiting : r.phase = .waiting) (line : s.cle.onLine ≠ some k) : s.closeNotice k =
      s.endRequest k (r.withdrawn .closed) := by
  unfold State.closeNotice
  rw [held]
  exact (if_neg (by simp [waiting])).trans (if_neg (by simpa using line))

theorem Cle.requestOf_channel {c : Cle} {k : TalkId} {r : ClaimRequest} (held : c.requestOf k = some r) :
    r.channel = k := by
  simpa using List.find?_some held

/-- The requests made join the tail of the channel's waiting list (R140). -/
theorem State.enqueue_own (c : ChannelId) (rs : List MemRequest) :
    (s.enqueue c rs).mpt.waiting[c] = s.mpt.waiting[c] ++ rs := by
  simp

theorem State.enqueue_other {c d : ChannelId} (rs : List MemRequest) (other : d ≠ c) :
    (s.enqueue c rs).mpt.waiting[d] = s.mpt.waiting[d] := by
  have differ : c.val ≠ d.val := fun e => other (Fin.ext e.symm)
  simp [Vector.getElem_set_ne, differ]

theorem State.applyTalk_get (k : TalkId) (f : ChannelContext → Talk → Out Talk) :
    (s.applyTalk k f).talk[k] = (f (s.talkContext k) s.talk[k]).chan := by
  simp

theorem State.applyListen_get (k : ListenId) (f : ChannelContext → Listen → Out Listen) :
    (s.applyListen k f).listen[k] = (f (s.listenContext k) s.listen[k]).chan := by
  simp

theorem State.applyTalk_port (k : TalkId) (f : ChannelContext → Talk → Out Talk) :
    (s.applyTalk k f).mpt = (s.enqueue (talkChannel k) (f (s.talkContext k) s.talk[k]).requests).mpt :=
  s.applyTalk_mpt k f

theorem State.applyListen_port (k : ListenId) (f : ChannelContext → Listen → Out Listen) :
    (s.applyListen k f).mpt = (s.enqueue (listenChannel k) (f (s.listenContext k) s.listen[k]).requests).mpt :=
  s.applyListen_mpt k f

/-- The state in which an event at a talk channel completes the command in progress (R154). -/
theorem State.busy_commandComplete {code : BitVec 8} (busy : s.hpt.mailbox = .busy code) :
    s.commandComplete = s.answer .ok code := by
  unfold State.commandComplete
  rw [busy]

end

/-- Settles O10: on the link by what becomes of the request, off it by what the ring has to write back. -/
theorem closeOfATalkChannel : Obligations.CloseOfATalkChannel := by
  intro s taken
  rw [exec_close_of_takes taken]
  refine ⟨fun high => ?_, fun k named => ?_⟩
  · rw [State.closeCommand_out (s := s.withCode 7) high]
    rfl
  rw [State.closeCommand_talk (s := s.withCode 7) named]
  refine ⟨fun closed => next_of_eq (if_pos closed), fun opened link u hu => ?_, fun opened off unbound free => ?_⟩
  · have base : ((s.withCode 7).busy 7).closingTalk k = u := by
      rw [hu, State.closingTalk_eq]
      rfl
    have cle : u.cle = s.cle := by rw [hu]
    rw [if_neg (by exact opened), State.closeTalk_link (by exact link), base]
    refine ⟨fun none => ?_, fun r held => ⟨fun won => ?_, fun waiting line => ?_, fun waiting line => ?_⟩⟩
    · rw [State.closeNotice_none (by rw [cle]; exact none)]
    · rw [State.closeNotice_won (by rw [cle]; exact held) won]
    · rw [State.closeNotice_line (by rw [cle]; exact held) waiting (by rw [cle]; exact line), cle]
      rfl
    · rw [State.closeNotice_waits (by rw [cle]; exact held) waiting (by rw [cle]; exact line), State.endRequest, cle,
        ClaimRequest.withdrawn, ClaimRequest.outcome, Cle.requestOf_channel held]
      rfl
  · have requestless : s.cle.requestOf k = none := by simpa [Cle.holds] using free
    have base : ((s.withCode 7).busy 7).closingTalk k = ((s.withCode 7).busy 7).setTalk k s.talk[k].closing := by
      have open' : ((s.withCode 7).busy 7).talk[k].bound = none := unbound
      rw [State.closingTalk_eq, open']
      rfl
    rw [if_neg (by exact opened), State.closeTalk_off (by exact off), base,
      State.closeNotice_none (by exact requestless)]
    have own : (((s.withCode 7).busy 7).setTalk k s.talk[k].closing).talk[k] = s.talk[k].closing := State.setTalk_get k _
    have closes := s.talk[k].toChannelCore.closes_close (s.talkContext k) none
    have applied := State.applyTalk_of_silent (s := ((s.withCode 7).busy 7).setTalk k s.talk[k].closing) (k := k)
      (f := Talk.closeComplete)
      (o := { (s.talk[k].toChannelCore.close (s.talkContext k) none).mapChan s.talk[k].closing.closedAs with
        done := true }) (by rw [own, Talk.closeComplete_eq]; rfl) closes.records closes.release
    have used : ∀ d, heldOf s.talk[k].ring.current = some d → 0 < s.talk[k].ring.position →
      s.talk[k].toChannelCore.close (s.talkContext k) none = _ :=
      fun d held done => ChannelCore.close_of_used (s.talkContext k) none held done
    have unused := ChannelCore.close_of_unused (c := s.talk[k].toChannelCore) (s.talkContext k) none
    generalize s.talk[k].toChannelCore.close (s.talkContext k) none = o at *
    rw [if_pos rfl, State.busy_commandComplete (code := 7) (by rfl)] at applied
    rw [applied]
    generalize ht : ((((((s.withCode 7).busy 7).setTalk k s.talk[k].closing).setTalk k
      (o.mapChan s.talk[k].closing.closedAs).chan).enqueue (talkChannel k) o.requests).answer .ok 7) = t
    have now : t.talk[k] = s.talk[k].closing.closedAs o.chan := by
      rw [← ht]
      exact State.setTalk_get k _
    have mpt : t.mpt = (s.enqueue (talkChannel k) o.requests).mpt := by
      rw [← ht]
      rfl
    refine ⟨t, next_of_eq ht, by rw [← ht]; rfl, ?_⟩
    rw [now]
    refine ⟨rfl, rfl, rfl, rfl, rfl, rfl, rfl, rfl, rfl, rfl, closes.current, closes.ahead, closes.position, closes.base,
      closes.fi, fun held done => ?_, fun h => ?_, fun j other => ?_, ?_⟩
    · obtain ⟨d, held⟩ := Option.isSome_iff_exists.mp held
      have nonzero : s.talk[k].ring.position ≠ 0 := done.ne'
      rw [mpt, used d held done, State.enqueue_own, completionWords, if_neg nonzero]
      exact ⟨rfl, rfl⟩
    · rw [mpt, unused h, Out.only_requests, State.enqueue_nil]
      exact ⟨rfl, rfl⟩
    · rw [← ht]
      change (State.setTalk (((s.withCode 7).busy 7).setTalk k s.talk[k].closing) k _).talk[j] = s.talk[j]
      rw [State.setTalk_get_other other, State.setTalk_get_other other]
      rfl
    · rw [← ht]
      simp [State.answer, State.setMailbox, State.busy, State.withCode]

/-! ## CLOSE of a listen channel (R104, R137, R138) -/

/-- A listen channel whose CLOSE has completed, with what its ring is left as (R138). -/
def Listen.closedAs (l : Listen) (c : ChannelCore) : Listen :=
  { l with
    toChannelCore := c, state := .closed, tag := none, bound := none, expected := none, lastSequence := none
    inWrite := [], waiting := [], writePoint := none, duplicate := false, close := .none, haltCause := none }

theorem Listen.closeComplete_eq (ctx : ChannelContext) (l : Listen) : l.closeComplete ctx =
    { (l.toChannelCore.close ctx l.lastSequence).mapChan l.closedAs with done := true } := rfl

/-- A listen channel with a CLOSE taken (R137). -/
def Listen.closing (l : Listen) : Listen := { l with close := .taken }

/-- A listen channel with a CLOSE applied, its drop episode still open (R137). -/
def Listen.applying (l : Listen) : Listen :=
  { l with
    close := .applied, bound := none, expected := none, duplicate := false, waiting := []
    state := if l.state == .halted then .halted else .waiting }

/-- The records of an episode that ends (R130). -/
def Listen.episodeRecords (ctx : ChannelContext) (l : Listen) : List EventRecord := (l.endEpisode ctx).records

/-- A CLOSE that is applied while a data write is outstanding waits for it (R137, R138). -/
theorem Listen.applyClose_of_writing (ctx : ChannelContext) {l : Listen} (writing : l.writing = true) :
    (l.applyClose ctx).chan = { l.applying with episode := none } ∧ (l.applyClose ctx).requests = [] ∧
      (l.applyClose ctx).done = false := by
  have waits : (({ l.applying with episode := none } : Listen).closeIfDone ctx) =
      Out.only { l.applying with episode := none } := by
    have still : ({ l.applying with episode := none } : Listen).writing = true := writing
    rw [Listen.closeIfDone, still]
    simp
  have ended : (l.applying.endEpisode ctx).requests = [] ∧ (l.applying.endEpisode ctx).done = false := by
    unfold Listen.endEpisode
    split <;> exact ⟨rfl, rfl⟩
  have run : l.applyClose ctx = (l.applying.endEpisode ctx).andThen (Listen.closeIfDone ctx) := rfl
  rw [run]
  simp [Out.andThen, waits, ended]

/-- A CLOSE that is applied with no data write outstanding completes (R137, R138). -/
theorem Listen.applyClose_of_quiet (ctx : ChannelContext) {l : Listen} (quiet : l.writing = false) :
    (l.applyClose ctx).chan = ({ l.applying with episode := none } : Listen).closedAs
        (l.toChannelCore.close ctx l.lastSequence).chan ∧
      (l.applyClose ctx).requests = (l.toChannelCore.close ctx l.lastSequence).requests ∧
      (l.applyClose ctx).done = true := by
  have completes : (({ l.applying with episode := none } : Listen).closeIfDone ctx) =
      ({ l.applying with episode := none } : Listen).closeComplete ctx := by
    have still : ({ l.applying with episode := none } : Listen).writing = false := quiet
    rw [Listen.closeIfDone, still]
    simp [Listen.applying]
  have ended : (l.applying.endEpisode ctx).requests = [] := by
    unfold Listen.endEpisode
    split <;> rfl
  have run : l.applyClose ctx = (l.applying.endEpisode ctx).andThen (Listen.closeIfDone ctx) := rfl
  rw [run]
  simp only [Out.andThen, Listen.endEpisode_chan, completes, ended, List.nil_append]
  exact ⟨rfl, rfl, Bool.or_true _⟩

theorem State.closeListen_eq (s : State) (k : ListenId) : s.closeListen k =
    if s.inLink then s.setListen k s.listen[k].closing
    else (s.setListen k s.listen[k].closing).applyListen k Listen.applyClose := rfl

/-- Settles O11: on the link TAKEN; off it applied, and complete where no write is outstanding. -/
theorem closeOfAListenChannel : Obligations.CloseOfAListenChannel := by
  intro s k taken named
  rw [exec_close_of_takes taken, State.closeCommand_listen (s := s.withCode 7) named]
  have own : (((s.withCode 7).busy 7).setListen k s.listen[k].closing).listen[k] = s.listen[k].closing :=
    State.setListen_get k _
  refine ⟨fun closed => next_of_eq (if_pos closed), fun opened link => ?_, fun opened off writing => ?_,
    fun opened off quiet => ?_⟩
  · rw [if_neg (by exact opened), State.closeListen_eq, if_pos (by exact link)]
    rfl
  all_goals rw [if_neg (by exact opened), State.closeListen_eq, if_neg (by rw [Bool.not_eq_true]; exact off)]
  · obtain ⟨chan, requests, done⟩ := Listen.applyClose_of_writing (s.listenContext k) (l := s.listen[k].closing) writing
    have now : ((((s.withCode 7).busy 7).setListen k s.listen[k].closing).applyListen k Listen.applyClose).listen[k] =
        { s.listen[k].closing.applying with episode := none } := by
      rw [State.applyListen_get, own]
      exact chan
    refine ⟨(((s.withCode 7).busy 7).setListen k s.listen[k].closing).applyListen k Listen.applyClose, rfl, ?_, ?_⟩
    · rw [State.applyListen_mailbox, own]
      exact if_neg (by rw [Bool.not_eq_true]; exact done)
    · rw [now]
      refine ⟨rfl, rfl, rfl, rfl, rfl, rfl, ?_, ?_, ?_, ?_, ?_⟩
      · have none : (Listen.applyClose ((((s.withCode 7).busy 7).setListen k s.listen[k].closing).listenContext k)
            s.listen[k].closing).requests = [] := requests
        rw [State.applyListen_port, own, none, State.enqueue_nil]
        rfl
      · rw [State.applyListen_talk]
        rfl
      · rw [State.applyListen_stc]
        rfl
      · rw [State.applyListen_smap]
        rfl
      · rw [State.applyListen_cle]
        rfl
  · obtain ⟨chan, requests, done⟩ := Listen.applyClose_of_quiet (s.listenContext k) (l := s.listen[k].closing) quiet
    have now : ((((s.withCode 7).busy 7).setListen k s.listen[k].closing).applyListen k Listen.applyClose).listen[k] =
        ({ s.listen[k].closing.applying with episode := none } : Listen).closedAs
          (s.listen[k].toChannelCore.close (s.listenContext k) s.listen[k].lastSequence).chan := by
      rw [State.applyListen_get, own]
      exact chan
    have closes := s.listen[k].toChannelCore.closes_close (s.listenContext k) s.listen[k].lastSequence
    have mpt : ((((s.withCode 7).busy 7).setListen k s.listen[k].closing).applyListen k Listen.applyClose).mpt =
        (s.enqueue (listenChannel k)
          (s.listen[k].toChannelCore.close (s.listenContext k) s.listen[k].lastSequence).requests).mpt := by
      rw [State.applyListen_port, own]
      exact congrArg (fun rs => (s.enqueue (listenChannel k) rs).mpt) requests
    refine ⟨(((s.withCode 7).busy 7).setListen k s.listen[k].closing).applyListen k Listen.applyClose, rfl, ?_, ?_⟩
    · rw [State.applyListen_mailbox, own]
      exact (if_pos done).trans rfl
    · rw [now, mpt]
      refine ⟨rfl, rfl, rfl, rfl, rfl, rfl, closes.current, closes.ahead, fun held used => ?_, fun unused => ?_,
        fun j other => ?_, ?_, ?_, ?_, ?_⟩
      · obtain ⟨d, held⟩ := Option.isSome_iff_exists.mp held
        rw [ChannelCore.close_of_used _ _ held used, State.enqueue_own, completionWords, if_neg used.ne']
        exact ⟨rfl, rfl⟩
      · rw [ChannelCore.close_of_unused _ _ unused, Out.only_requests, State.enqueue_nil]
        exact ⟨rfl, rfl⟩
      · exact (State.applyListen_other _ (Ne.symm other)).trans ((State.setListen_get_other other _).trans rfl)
      · rw [State.applyListen_talk]
        rfl
      · rw [State.applyListen_stc]
        rfl
      · rw [State.applyListen_smap]
        rfl
      · rw [State.applyListen_cle]
        rfl

end Sys2Proof.Machine

/-! TKE's work on the settled notice (R103, R104, R118, R120). -/

namespace Sys2Proof.Machine

/-! ## The waiting lists after the same event at every channel (R140) -/

section
variable {s : State}

theorem State.foldl_applyTalk_waiting (f : ChannelContext → Talk → Out Talk) (k : TalkId) (ids : List TalkId)
    (distinct : ids.Nodup) (s : State) :
    (ids.foldl (fun s j => s.applyTalk j f) s).mpt.waiting[talkChannel k] =
      s.mpt.waiting[talkChannel k] ++ if k ∈ ids then (f (s.talkContext k) s.talk[k]).requests else [] := by
  induction ids generalizing s with
  | nil => simp
  | cons j ids ih =>
    obtain ⟨fresh, distinct⟩ := List.nodup_cons.mp distinct
    rw [List.foldl_cons, ih distinct, State.applyTalk_talkContext, State.applyTalk_port]
    by_cases same : k = j
    · subst same
      rw [State.enqueue_own]
      simp [fresh]
    · rw [State.applyTalk_other f (Ne.symm same), State.enqueue_other _ fun e => same (talkChannel_inj.mp e)]
      simp [same]

theorem State.eachTalk_waiting (s : State) (f : ChannelContext → Talk → Out Talk) (k : TalkId) :
    (s.eachTalk f).mpt.waiting[talkChannel k] =
      s.mpt.waiting[talkChannel k] ++ (f (s.talkContext k) s.talk[k]).requests := by
  rw [State.eachTalk, State.foldl_applyTalk_waiting f k _ (List.nodup_finRange 8), if_pos (List.mem_finRange k)]

theorem State.eachTalk_waiting_listen (f : ChannelContext → Talk → Out Talk) (k : ListenId) :
    (s.eachTalk f).mpt.waiting[listenChannel k] = s.mpt.waiting[listenChannel k] :=
  State.eachTalk_induct (p := fun t => t.mpt.waiting[listenChannel k] = s.mpt.waiting[listenChannel k])
    (fun t j h => by
      rw [State.applyTalk_port, State.enqueue_other _ fun e => talkChannel_ne_listenChannel j k e.symm]
      exact h) rfl

theorem State.eachTalk_outstanding (f : ChannelContext → Talk → Out Talk) :
    (s.eachTalk f).mpt.outstanding = s.mpt.outstanding :=
  State.eachTalk_induct (p := fun t => t.mpt.outstanding = s.mpt.outstanding)
    (fun t j h => by rw [State.applyTalk_mpt]; exact h) rfl

/-- A command in progress completes where some channel reports it so (R154). -/
theorem State.eachTalk_completes {f : ChannelContext → Talk → Out Talk} {k : TalkId}
    (done : (f (s.talkContext k) s.talk[k]).done = true) {code : BitVec 8} (busy : s.hpt.mailbox = .busy code) :
    (s.eachTalk f).hpt.mailbox = .done .ok code := by
  rw [State.eachTalk_mailbox, if_pos ⟨k, done⟩, State.busy_commandComplete busy]
  rfl

end

/-! ## One channel's boundary work (R103, R120) -/

section
variable {ctx : ChannelContext} {t : Talk}

theorem Talk.boundary_of_quiet (resume : t.resumeWaits = false) (close : t.closeTaken = false ∨ t.bound.isSome = true) :
    t.boundary ctx = Out.only t := by
  have stays : (t.closeTaken && t.bound.isNone) = false := by
    rcases close with open' | bound
    · rw [open']
      rfl
    · obtain ⟨slot, bound⟩ := Option.isSome_iff_exists.mp bound
      rw [bound]
      exact Bool.and_false _
  unfold Talk.boundary
  rw [resume]
  simp only [Bool.false_eq_true, if_false, Out.only_andThen, stays]

theorem Talk.boundary_of_close (resume : t.resumeWaits = false) (close : t.closeTaken = true) (unbound : t.bound = none) :
    t.boundary ctx = t.closeComplete ctx := by
  unfold Talk.boundary
  rw [resume]
  simp [close, unbound]

/-- A RESUME that applies to a HALTED channel (R103, R118). -/
theorem Talk.resumed_of_halted (halted : t.state = .halted) : t.resumed ctx =
    { (t.unhalted.rejudge ctx).andThen (Talk.pump ctx) with done := true } := by
  unfold Talk.resumed
  rw [if_pos (by simp [halted])]
  rfl

theorem Talk.unhalted_due_state (t : Talk) : t.unhalted.due.state = if t.bound = none then .armed
    else if t.ring.ci ≠ t.ring.fi ∨ t.staging ≠ [] ∨ t.endWait = true then .running else .starved := by
  have walks : ¬ (t.unhalted.state = .closed ∨ t.unhalted.state = .halted) := by simp [Talk.unhalted]
  rw [Talk.due, if_neg walks]
  rfl

theorem Talk.boundary_of_resume (resume : t.resumeWaits = true) (close : t.closeTaken = false) (halted : t.state = .halted) :
    (t.boundary ctx).chan = (t.unhalted.due.pump ctx).chan ∧ (t.boundary ctx).requests = (t.unhalted.due.pump ctx).requests ∧
      (t.boundary ctx).done = true := by
  have still : (t.resumed ctx).chan.closeTaken = false := by
    rw [Talk.resumed_of_halted halted]
    simp only [Out.andThen_chan, Talk.pump_closeTaken, Talk.rejudge_chan]
    exact close
  have run : t.boundary ctx = t.resumed ctx := by
    unfold Talk.boundary
    rw [if_pos resume]
    exact Out.andThen_of_only (by simp [still])
  rw [run, Talk.resumed_of_halted halted]
  simp [Out.andThen, Talk.rejudge_due]

theorem Talk.boundary_records (resume : t.resumeWaits = false) : (t.boundary ctx).records = [] := by
  unfold Talk.boundary
  rw [resume]
  simp only [Bool.false_eq_true, if_false, Out.only_andThen]
  split
  · exact Talk.closeComplete_records ctx t
  · rfl

theorem Talk.boundary_release : (t.boundary ctx).release = false := by
  unfold Talk.boundary
  have resumed : (if t.resumeWaits then t.resumed ctx else Out.only t).release = false := by
    split
    · simp
    · rfl
  have closes : ∀ u : Talk, (if u.closeTaken && u.bound.isNone then u.closeComplete ctx else Out.only u).release =
      false := fun u => by
    split
    · simp
    · rfl
  simp only [Out.andThen, resumed, closes, Bool.false_or]

end

/-- Settles O39: what TKE's work makes of each channel, alone. -/
theorem talkBoundaryWorkClosesAndResumes : Obligations.TalkBoundaryWorkClosesAndResumes := by
  intro s
  refine ⟨fun idle => next_of_eq (State.talkWork_idle idle), fun waits => ?_⟩
  have work : s.talkWork = (s.setBoundary { s.boundary with talk := false }).eachTalk Talk.boundary := if_pos waits
  have cle : ((s.setBoundary { s.boundary with talk := false }).eachTalk Talk.boundary).cle = s.cle :=
    State.eachTalk_induct (p := fun t => t.cle = s.cle)
      (fun t k h => (State.applyTalk_cle Talk.boundary_release).trans h) rfl
  refine ⟨(s.setBoundary { s.boundary with talk := false }).eachTalk Talk.boundary, next_of_eq work, by simp,
    fun k => ⟨fun resume close => ?_, fun resume close unbound => ?_, fun resume close halted => ?_⟩, fun k => ?_, ?_,
    fun none => ?_, by simp, cle, by simp, by simp, by simp, by simp⟩
  · rw [State.eachTalk_get, State.eachTalk_waiting, Talk.boundary_of_quiet (by exact resume) (by exact close)]
    exact ⟨rfl, List.append_nil _⟩
  · have closes := s.talk[k].toChannelCore.closes_close (s.talkContext k) none
    have run : Talk.boundary ((s.setBoundary { s.boundary with talk := false }).talkContext k)
        (s.setBoundary { s.boundary with talk := false }).talk[k] = s.talk[k].closeComplete (s.talkContext k) :=
      Talk.boundary_of_close resume close unbound
    rw [State.eachTalk_get, State.eachTalk_waiting, run, Talk.closeComplete_eq]
    refine ⟨rfl, rfl, rfl, rfl, rfl, rfl, rfl, rfl, rfl, rfl, closes.current, closes.ahead, closes.position, closes.base,
      closes.fi, rfl, rfl, fun marked hm => ⟨fun d held used => ?_, fun unused => ?_⟩, fun code busy => ?_⟩
    · rw [← staleEntries_eq] at hm
      rw [ChannelCore.close_of_used _ _ held used, completionWords, if_neg used.ne', hm]
      exact ⟨rfl, rfl, rfl⟩
    · rw [← staleEntries_eq] at hm
      rw [ChannelCore.close_of_unused _ _ unused, hm]
      exact ⟨rfl, rfl, List.append_nil _⟩
    · exact State.eachTalk_completes (k := k) (by rw [run]; rfl) busy
  · obtain ⟨chan, requests, done⟩ := Talk.boundary_of_resume (ctx := s.talkContext k) resume close halted
    have now : ((s.setBoundary { s.boundary with talk := false }).eachTalk Talk.boundary).talk[k] =
        (Talk.pump (s.talkContext k) s.talk[k].unhalted.due).chan := (State.eachTalk_get _ _ k).trans chan
    refine ⟨⟨_, rfl, now, ?_⟩, ?_, ?_, ?_, ?_, fun code busy => ?_⟩
    · rw [State.eachTalk_waiting, List.append_nil]
      exact congrArg _ requests
    · rw [now, Talk.pump_haltCause]
      rfl
    · rw [now, Talk.pump_bound]
      rfl
    · rw [now, Talk.pump_resumeWaits]
      rfl
    · rw [now, Talk.pump_state]
      exact Talk.unhalted_due_state _
    · exact State.eachTalk_completes (k := k) (by exact done) busy
  · exact State.eachTalk_waiting_listen _ k
  · exact State.eachTalk_outstanding _
  · have silent : ((List.finRange 8).flatMap fun k => (Talk.boundary
        ((s.setBoundary { s.boundary with talk := false }).talkContext k)
        (s.setBoundary { s.boundary with talk := false }).talk[k]).records) = [] :=
      List.flatMap_eq_nil_iff.mpr fun k _ => Talk.boundary_records (none k)
    rw [State.eachTalk_evq, silent]
    rfl

end Sys2Proof.Machine

/-! LNE's work on the settled notice (R125, R126, R135, R137, R138). -/

namespace Sys2Proof.Machine

/-! ## Slots found by their tag (R125) -/

section
variable {s : State} {tag : Tag}

theorem State.mem_slotsWithTag {slot : Slot} : slot ∈ s.slotsWithTag tag ↔ s.smap.entries[slot].tagOf = some tag := by
  simp [State.slotsWithTag, -Fin.getElem_fin]

theorem State.slotsWithTag_nodup : (s.slotsWithTag tag).Nodup := (List.nodup_finRange 32).filter _

theorem State.foundSlot_of_none (untagged : ∀ j : Slot, s.smap.entries[j].tagOf ≠ some tag) : s.foundSlot tag = none := by
  have empty : s.slotsWithTag tag = [] := List.filter_eq_nil_iff.mpr fun j _ => by simpa [-Fin.getElem_fin] using untagged j
  rw [State.foundSlot, empty]
  rfl

theorem State.foundSlot_of_lowest {slot : Slot} (here : s.smap.entries[slot].tagOf = some tag)
    (lowest : ∀ j : Slot, j < slot → s.smap.entries[j].tagOf ≠ some tag) :
    s.foundSlot tag = some (slot, (s.smap.entries[slot].ownerOf s.selfId).getD 0) := by
  have head : (s.slotsWithTag tag).head? = some slot := by
    rw [State.slotsWithTag, List.head?_filter]
    refine find?_finRange_eq_some (by simpa [-Fin.getElem_fin] using here) fun j before => ?_
    simpa [-Fin.getElem_fin] using lowest j before
  rw [State.foundSlot, head]
  rfl

end

/-! ## Resolution of one channel (R125, R126) -/

section
variable {ctx : ChannelContext} {l : Listen} {slot : Slot} {owner : StationId} {found : Option (Slot × StationId)} {n : Nat}

theorem Listen.rebind_of_same (bound : l.bound = some slot) : l.rebind ctx (some (slot, owner)) = Out.only l :=
  if_pos bound

/-- A channel bound to a new slot, before its state is brought in line (R125). -/
def Listen.boundTo (l : Listen) (slot : Slot) : Listen := { l with bound := some slot, expected := none }

/-- A channel whose stream is gone (R125). -/
def Listen.unboundStream (l : Listen) : Listen := { l with bound := none, expected := none }

/-- STREAM_BOUND (R125). -/
def Listen.boundRecord (ctx : ChannelContext) (l : Listen) (slot : Slot) (owner : StationId) : EventRecord :=
  event .streamBound 0 (channel := some ctx.channel) (slot := some slot) (station := some owner) (tag := l.tag)

/-- STREAM_GONE (R125). -/
def Listen.goneRecord (ctx : ChannelContext) (l : Listen) (slot : Slot) : EventRecord :=
  event .streamGone 0 (channel := some ctx.channel) (slot := some slot) (tag := l.tag)

theorem Listen.rebind_of_new (new : l.bound ≠ some slot) : l.rebind ctx (some (slot, owner)) =
    ((Out.only (l.boundTo slot)).record (l.boundRecord ctx slot owner)).andThen (Listen.rejudge ctx) :=
  if_neg new

theorem Listen.rebind_of_unbound (unbound : l.bound = none) : l.rebind ctx none = Out.only l := by
  unfold Listen.rebind
  rw [unbound]

theorem Listen.rebind_of_gone (bound : l.bound = some slot) : l.rebind ctx none =
    if l.state = .halted then (Out.only l.unboundStream).record (l.goneRecord ctx slot)
    else ((Out.only { l.unboundStream with state := .waiting }).record (l.goneRecord ctx slot)).andThen
      (Listen.endEpisode ctx) := by
  unfold Listen.rebind
  rw [bound]
  exact if_congr beq_iff_eq rfl rfl

/-- DUPLICATE_TAG (R126). -/
def Listen.duplicateRecord (ctx : ChannelContext) (l : Listen) (found : Option Slot) (n : Nat) : EventRecord :=
  event .duplicateTag n (channel := some ctx.channel) (slot := found) (tag := l.tag)

theorem Listen.judgeDuplicate_chan (found : Option Slot) :
    (l.judgeDuplicate ctx found n).chan = { l with duplicate := decide (2 ≤ n) } := by
  unfold Listen.judgeDuplicate
  by_cases two : 2 ≤ n
  · rw [if_pos two, decide_eq_true two]
    split
    · rename_i known
      rw [← known]
      rfl
    · rfl
  · rw [if_neg two, decide_eq_false two]
    rfl

theorem Listen.judgeDuplicate_records (found : Option Slot) : (l.judgeDuplicate ctx found n).records =
    if 2 ≤ n ∧ l.duplicate = false then [l.duplicateRecord ctx found n] else [] := by
  unfold Listen.judgeDuplicate
  by_cases two : 2 ≤ n
  · cases known : l.duplicate with
    | true => simp [two]
    | false =>
      simp [two, Out.record]
      rfl
  · simp [two]

theorem Listen.judgeDuplicate_silent (found : Option Slot) : (l.judgeDuplicate ctx found n).requests = [] ∧
    (l.judgeDuplicate ctx found n).done = false := by
  unfold Listen.judgeDuplicate
  split
  · split <;> exact ⟨rfl, rfl⟩
  · exact ⟨rfl, rfl⟩

theorem Listen.resolve_of_open (opened : l.state ≠ .closed) (close : l.close = .none) : l.resolve ctx found n =
    (l.rebind ctx found).andThen (Listen.judgeDuplicate ctx (found.map Prod.fst) n) :=
  if_neg (by simp [opened, close])

theorem Listen.resolve_of_closed (closed : l.state = .closed ∨ l.close ≠ .none) : l.resolve ctx found n = Out.only l :=
  if_pos (by rcases closed with h | h <;> simp [h])

/-- What resolution keeps of a channel (R125). -/
structure Listen.Rebound (l : Listen) (o : Out Listen) : Prop where
  inWrite : o.chan.inWrite = l.inWrite
  waiting : o.chan.waiting = l.waiting
  ring : o.chan.ring = l.ring
  haltCause : o.chan.haltCause = l.haltCause
  resumeWaits : o.chan.resumeWaits = l.resumeWaits
  tag : o.chan.tag = l.tag
  duplicate : o.chan.duplicate = l.duplicate
  requests : o.requests = []
  done : o.done = false

@[simp] theorem Listen.endEpisode_requests : (l.endEpisode ctx).requests = [] := by
  unfold Listen.endEpisode
  split <;> rfl

@[simp] theorem Listen.endEpisode_done : (l.endEpisode ctx).done = false := by
  unfold Listen.endEpisode
  split <;> rfl

theorem Listen.rebind_rebound : l.Rebound (l.rebind ctx found) := by
  rcases found with _ | ⟨slot, owner⟩
  · cases bound : l.bound with
    | none =>
      rw [Listen.rebind_of_unbound bound]
      exact ⟨rfl, rfl, rfl, rfl, rfl, rfl, rfl, rfl, rfl⟩
    | some slot =>
      rw [Listen.rebind_of_gone bound]
      split
      · exact ⟨rfl, rfl, rfl, rfl, rfl, rfl, rfl, rfl, rfl⟩
      · constructor <;> simp [Out.andThen, Out.record, Listen.unboundStream, Out.only]
  · by_cases same : l.bound = some slot
    · rw [Listen.rebind_of_same same]
      exact ⟨rfl, rfl, rfl, rfl, rfl, rfl, rfl, rfl, rfl⟩
    · rw [Listen.rebind_of_new same]
      constructor <;> simp [Out.andThen, Out.record, Listen.rejudge_chan, Listen.boundTo, Out.only]

/-- What resolution keeps of an open channel, its duplicate mark apart (R125, R126). -/
theorem Listen.resolve_silent : (l.resolve ctx found n).requests = [] ∧ (l.resolve ctx found n).done = false := by
  by_cases closed : l.state = .closed ∨ l.close ≠ .none
  · rw [Listen.resolve_of_closed closed]
    exact ⟨rfl, rfl⟩
  · obtain ⟨opened, close⟩ := not_or.mp closed
    have rebound := l.rebind_rebound (ctx := ctx) (found := found)
    obtain ⟨requests, done⟩ := ((l.rebind ctx found).chan).judgeDuplicate_silent (ctx := ctx) (n := n)
      (found.map Prod.fst)
    rw [Listen.resolve_of_open opened (not_not.mp close)]
    simp [Out.andThen, rebound.requests, rebound.done, requests, done]

theorem Listen.resolve_chan (opened : l.state ≠ .closed) (close : l.close = .none) : (l.resolve ctx found n).chan =
    { (l.rebind ctx found).chan with duplicate := decide (2 ≤ n) } := by
  rw [Listen.resolve_of_open opened close, Out.andThen_chan, Listen.judgeDuplicate_chan]

theorem Listen.resolve_records (opened : l.state ≠ .closed) (close : l.close = .none) : (l.resolve ctx found n).records =
    (l.rebind ctx found).records ++ if 2 ≤ n ∧ l.duplicate = false then
      [l.duplicateRecord ctx (found.map Prod.fst) n] else [] := by
  have rebound := l.rebind_rebound (ctx := ctx) (found := found)
  have record : (l.rebind ctx found).chan.duplicateRecord ctx (found.map Prod.fst) n =
      l.duplicateRecord ctx (found.map Prod.fst) n := by
    rw [Listen.duplicateRecord, rebound.tag]
    rfl
  rw [Listen.resolve_of_open opened close]
  change _ ++ _ = _
  rw [Listen.judgeDuplicate_records, rebound.duplicate, record]

/-- The state R123 gives a bound channel that is not CLOSED (R125). -/
theorem Listen.judged_of_bound (bound : l.bound = some slot) (opened : l.state ≠ .closed) :
    l.judged = if l.state = .halted then .halted else if l.ring.ci ≠ l.ring.fi then .receiving else .starved := by
  have walks : (if 0 < l.ring.count then ListenState.receiving else .starved) =
      if l.ring.ci ≠ l.ring.fi then .receiving else .starved := if_congr l.ring.count_pos_iff rfl rfl
  unfold Listen.judged
  rw [bound]
  dsimp only
  rw [walks]
  cases state : l.state with
  | closed => exact absurd state opened
  | halted => rfl
  | waiting | receiving | starved => exact (if_neg (by decide)).symm

theorem Listen.rebind_new_chan (new : l.bound ≠ some slot) (opened : l.state ≠ .closed) :
    (l.rebind ctx (some (slot, owner))).chan = { l.boundTo slot with
      state := if l.state = .halted then .halted else if l.ring.ci ≠ l.ring.fi then .receiving else .starved } := by
  have judged := Listen.judged_of_bound (l := l.boundTo slot) rfl opened
  rw [Listen.rebind_of_new new, Out.andThen_chan, Listen.rejudge_chan]
  change { l.boundTo slot with state := (l.boundTo slot).judged } = _
  rw [judged]
  rfl

theorem Listen.rebind_gone_chan (bound : l.bound = some slot) :
    (l.rebind ctx none).chan.bound = none ∧ (l.rebind ctx none).chan.expected = none ∧
      (l.rebind ctx none).chan.state = if l.state = .halted then .halted else .waiting := by
  rw [Listen.rebind_of_gone bound]
  split
  · rename_i halted
    exact ⟨rfl, rfl, halted⟩
  · simp [Listen.unboundStream]

/-- The records of a channel bound to a new slot (R125, R133). -/
theorem Listen.rebind_new_records (new : l.bound ≠ some slot) : (l.rebind ctx (some (slot, owner))).records =
    l.boundRecord ctx slot owner :: ((l.boundTo slot).rejudge ctx).records := by
  rw [Listen.rebind_of_new new]
  rfl

/-- The records of a channel whose stream is gone (R125, R130). -/
theorem Listen.rebind_gone_records (bound : l.bound = some slot) : (l.rebind ctx none).records =
    l.goneRecord ctx slot ::
      if l.state = .halted then [] else (({ l.unboundStream with state := .waiting } : Listen).endEpisode ctx).records := by
  rw [Listen.rebind_of_gone bound]
  split <;> rfl

theorem Listen.rebind_kinds {r : EventRecord} (made : r ∈ (l.rebind ctx found).records) :
    r.kind ≠ .duplicateTag ∧
      (r.kind = .streamBound → ∃ slot owner, found = some (slot, owner) ∧ l.bound ≠ some slot) ∧
      (r.kind = .streamGone → found = none ∧ l.bound ≠ none) := by
  rcases found with _ | ⟨slot, owner⟩
  · cases bound : l.bound with
    | none =>
      rw [Listen.rebind_of_unbound bound] at made
      cases made
    | some slot =>
      rw [Listen.rebind_gone_records bound] at made
      have other : r = l.goneRecord ctx slot ∨ r.kind = .dropEpisode := by
        rcases List.mem_cons.mp made with first | later
        · exact .inl first
        · split at later
          · cases later
          · exact .inr (Listen.endEpisode_makes (p := (· = .dropEpisode)) ctx _ rfl r later)
      rcases other with rfl | kind
      · exact ⟨nofun, nofun, fun _ => ⟨rfl, nofun⟩⟩
      · rw [kind]
        exact ⟨nofun, nofun, nofun⟩
  · by_cases same : l.bound = some slot
    · rw [Listen.rebind_of_same same] at made
      cases made
    · rw [Listen.rebind_new_records same] at made
      have other : r = l.boundRecord ctx slot owner ∨ r.kind = .channelStarved := by
        rcases List.mem_cons.mp made with first | later
        · exact .inl first
        · rw [Listen.rejudge_records] at later
          split at later
          · rw [List.mem_singleton.mp later]
            exact .inr rfl
          · cases later
      rcases other with rfl | kind
      · exact ⟨nofun, fun _ => ⟨slot, owner, rfl, same⟩, nofun⟩
      · rw [kind]
        exact ⟨nofun, nofun, nofun⟩

end

end Sys2Proof.Machine

/-! LNE's work on the settled notice as a whole, settled (R125, R126, R135, R137, R138). -/

namespace Sys2Proof.Machine

/-! ## Resolution of every channel (R125) -/

section
variable {s : State}

/-- Resolution of one channel against a settled map (R125). -/
def State.resolveBy (s : State) (ctx : ChannelContext) (l : Listen) : Out Listen :=
  match l.tag with
  | none => Out.only l
  | some tag => Listen.resolve ctx (s.foundSlot tag) (s.slotsWithTag tag).length l

theorem State.resolveListen_eq (k : ListenId) : s.resolveListen k = s.applyListen k s.resolveBy := by
  unfold State.resolveListen
  cases tagged : s.listen[k].tag with
  | none =>
    have still : s.resolveBy (s.listenContext k) s.listen[k] = Out.only s.listen[k] := by
      rw [State.resolveBy, tagged]
    rw [State.applyListen_only still, State.setListen_self]
  | some tag =>
    have same : s.resolveBy (s.listenContext k) s.listen[k] = Listen.resolve (s.listenContext k) (s.foundSlot tag)
        (s.slotsWithTag tag).length s.listen[k] := by
      rw [State.resolveBy, tagged]
    unfold State.applyListen
    dsimp only
    rw [same]

theorem State.resolveBy_congr {t : State} (smap : t.smap = s.smap) (stc : t.stc = s.stc) : t.resolveBy = s.resolveBy := by
  have found : t.foundSlot = s.foundSlot := by
    funext tag
    simp only [State.foundSlot, State.slotsWithTag, State.selfId, smap, stc]
  have slots : t.slotsWithTag = s.slotsWithTag := by
    funext tag
    simp only [State.slotsWithTag, smap]
  funext ctx l
  unfold State.resolveBy
  rw [found, slots]

theorem State.foldl_resolveListen (ids : List ListenId) (s : State) :
    ids.foldl State.resolveListen s = ids.foldl (fun t k => t.applyListen k s.resolveBy) s := by
  induction ids generalizing s with
  | nil => rfl
  | cons k ids ih =>
    have same : (s.applyListen k s.resolveBy).resolveBy = s.resolveBy := State.resolveBy_congr (by simp) (by simp)
    rw [List.foldl_cons, ih, List.foldl_cons, State.resolveListen_eq, same]

/-- LNE's work, event by event (R125). -/
theorem State.listenWork_eq (waits : s.boundary.listen = true) : s.listenWork =
    ((s.setBoundary { s.boundary with listen := false }).eachListen Listen.applyWaiting).eachListen s.resolveBy := by
  have same : ((s.setBoundary { s.boundary with listen := false }).eachListen Listen.applyWaiting).resolveBy =
      s.resolveBy := State.resolveBy_congr (by simp) (by simp)
  rw [State.listenWork, if_pos waits]
  dsimp only
  rw [State.foldl_resolveListen, same]
  rfl

theorem State.resolveBy_silent (ctx : ChannelContext) (l : Listen) :
    (s.resolveBy ctx l).requests = [] ∧ (s.resolveBy ctx l).done = false := by
  unfold State.resolveBy
  split
  · exact ⟨rfl, rfl⟩
  · exact Listen.resolve_silent

/-! ## The outcome for one channel -/

theorem State.eachListen_of_only {f : ChannelContext → Listen → Out Listen}
    (only : ∀ k : ListenId, f (s.listenContext k) s.listen[k] = Out.only s.listen[k]) : s.eachListen f = s := by
  unfold State.eachListen
  generalize List.finRange 8 = ids
  induction ids with
  | nil => rfl
  | cons k ids ih => rw [List.foldl_cons, State.applyListen_only (only k), State.setListen_self, ih]

/-- What LNE's work makes of one channel (R125). -/
def State.resolved (s : State) (k : ListenId) : Out Listen :=
  (Listen.applyWaiting (s.listenContext k) s.listen[k]).andThen (s.resolveBy (s.listenContext k))

section
variable (waits : s.boundary.listen = true) (k : ListenId)
include waits

theorem State.listenWork_get : s.listenWork.listen[k] = (s.resolved k).chan := by
  have ctx : ((s.setBoundary { s.boundary with listen := false }).eachListen Listen.applyWaiting).listenContext k =
      s.listenContext k := by simp [State.listenContext, State.stamp]
  rw [State.listenWork_eq waits, State.eachListen_get, State.eachListen_get, ctx]
  rfl

theorem State.listenWork_waiting : s.listenWork.mpt.waiting[listenChannel k] =
    s.mpt.waiting[listenChannel k] ++ (Listen.applyWaiting (s.listenContext k) s.listen[k]).requests := by
  rw [State.listenWork_eq waits, State.eachListen_waiting, (State.resolveBy_silent _ _).1, List.append_nil,
    State.eachListen_waiting]
  rfl

theorem State.listenWork_completes (done : (Listen.applyWaiting (s.listenContext k) s.listen[k]).done = true)
    {code : BitVec 8} (busy : s.hpt.mailbox = .busy code) : s.listenWork.hpt.mailbox = .done .ok code := by
  have none : ¬ ∃ j : ListenId, (s.resolveBy
      (((s.setBoundary { s.boundary with listen := false }).eachListen Listen.applyWaiting).listenContext j)
      ((s.setBoundary { s.boundary with listen := false }).eachListen Listen.applyWaiting).listen[j]).done = true := by
    rintro ⟨j, late⟩
    rw [(State.resolveBy_silent _ _).2] at late
    cases late
  rw [State.listenWork_eq waits, State.eachListen_mailbox, if_neg none, State.eachListen_mailbox, if_pos ⟨k, done⟩,
    State.busy_commandComplete (by exact busy)]
  rfl

end

theorem State.resolveBy_of_tag {ctx : ChannelContext} {l : Listen} {tag : Tag} (tagged : l.tag = some tag) :
    s.resolveBy ctx l = Listen.resolve ctx (s.foundSlot tag) (s.slotsWithTag tag).length l := by
  rw [State.resolveBy, tagged]

/-- A channel that is CLOSED or whose CLOSE is not absent is not resolved (R125). -/
theorem State.resolveBy_of_closed {ctx : ChannelContext} {l : Listen} (closed : l.state = .closed ∨ l.close ≠ .none) :
    s.resolveBy ctx l = Out.only l := by
  unfold State.resolveBy
  split
  · rfl
  · exact Listen.resolve_of_closed closed

theorem State.resolved_of_quiet {k : ListenId} (close : s.listen[k].close ≠ .taken)
    (resume : s.listen[k].resumeWaits = false) : s.resolved k = s.resolveBy (s.listenContext k) s.listen[k] := by
  rw [State.resolved, Listen.applyWaiting_of_none close resume, Out.only_andThen]

section
variable {ctx : ChannelContext} {l : Listen} {slot : Slot} {owner : StationId} {n : Nat}

theorem Listen.resolve_found (opened : l.state ≠ .closed) (close : l.close = .none) :
    (l.resolve ctx (some (slot, owner)) n).chan.bound = some slot ∧
      (l.bound = some slot → (l.resolve ctx (some (slot, owner)) n).chan.expected = l.expected ∧
        (l.resolve ctx (some (slot, owner)) n).chan.state = l.state) ∧
      (l.bound ≠ some slot → (l.resolve ctx (some (slot, owner)) n).chan.expected = none ∧
        (l.resolve ctx (some (slot, owner)) n).chan.state = if l.state = .halted then .halted
          else if l.ring.ci ≠ l.ring.fi then .receiving else .starved) := by
  rw [Listen.resolve_chan opened close]
  by_cases same : l.bound = some slot
  · rw [Listen.rebind_of_same same]
    exact ⟨same, fun _ => ⟨rfl, rfl⟩, fun new => absurd same new⟩
  · rw [Listen.rebind_new_chan same opened]
    exact ⟨rfl, fun old => absurd old same, fun _ => ⟨rfl, rfl⟩⟩

theorem Listen.resolve_unfound (opened : l.state ≠ .closed) (close : l.close = .none) :
    (l.resolve ctx none n).chan.bound = none ∧
      (l.bound.isSome = true → (l.resolve ctx none n).chan.expected = none ∧
        (l.resolve ctx none n).chan.state = if l.state = .halted then .halted else .waiting) := by
  rw [Listen.resolve_chan opened close]
  cases bound : l.bound with
  | none =>
    rw [Listen.rebind_of_unbound bound]
    exact ⟨bound, nofun⟩
  | some slot =>
    obtain ⟨unbound, expected, state⟩ := Listen.rebind_gone_chan (ctx := ctx) bound
    exact ⟨unbound, fun _ => ⟨expected, state⟩⟩

/-- An unbound WAITING channel stays so where its stream is not found (R125). -/
theorem Listen.resolve_unbound (close : l.close = .none) (waiting : l.state = .waiting) (unbound : l.bound = none) :
    (l.resolve ctx none n).chan.bound = none ∧ (l.resolve ctx none n).chan.state = .waiting := by
  rw [Listen.resolve_chan (by rw [waiting]; nofun) close, Listen.rebind_of_unbound unbound]
  exact ⟨unbound, waiting⟩

/-- A RESUME that waits at a channel without a CLOSE (R103, R135). -/
theorem Listen.applyWaiting_of_resume (halted : l.state = .halted) (close : l.close = .none) (resume : l.resumeWaits = true) :
    l.applyWaiting ctx = { l.unhalted.pump ctx with done := true } := by
  have run : l.resumed ctx = { l.unhalted.pump ctx with done := true } := by
    unfold Listen.resumed
    rw [if_pos (by simp [halted])]
    rfl
  have still : (l.unhalted.pump ctx).chan.close = .none := by
    rw [Listen.pump_close]
    exact close
  unfold Listen.applyWaiting
  rw [if_pos resume, run]
  exact Out.andThen_of_only (if_neg (by change ¬ ((l.unhalted.pump ctx).chan.close == .taken) = true; rw [still]; decide))

theorem Listen.applyWaiting_of_close (close : l.close = .taken) (resume : l.resumeWaits = false) :
    l.applyWaiting ctx = l.applyClose ctx := by
  unfold Listen.applyWaiting
  simp [resume, close]

/-! ## The records of one channel (R125, R126, R130) -/

theorem Listen.rejudge_newly_starved (waiting : l.state = .waiting) (empty : l.ring.ci = l.ring.fi) :
    ((l.boundTo slot).rejudge ctx).records =
      [event .channelStarved 0 (channel := some ctx.channel) (slot := some slot)] := by
  have judged : (l.boundTo slot).judged = .starved := by
    rw [Listen.judged_of_bound (slot := slot) rfl (by rw [Listen.boundTo, waiting]; nofun)]
    simp [Listen.boundTo, waiting, empty]
  have before : (l.boundTo slot).state = .waiting := waiting
  rw [Listen.rejudge_records, judged, before]
  rfl

theorem Listen.endEpisode_records_of_some {e : Episode} (episode : l.episode = some e) : (l.endEpisode ctx).records =
    [event .dropEpisode e.words (channel := some ctx.channel) (slot := some e.slot) (tag := l.tag)] := by
  unfold Listen.endEpisode
  rw [episode]
  rfl

theorem Listen.rebind_gone_episode {e : Episode} (bound : l.bound = some slot) (running : l.state ≠ .halted)
    (episode : l.episode = some e) : (l.rebind ctx none).chan.episode = none ∧
      (l.rebind ctx none).records = [l.goneRecord ctx slot,
        event .dropEpisode e.words (channel := some ctx.channel) (slot := some e.slot) (tag := l.tag)] := by
  rw [Listen.rebind_gone_records bound, Listen.rebind_of_gone bound, if_neg running, if_neg running,
    Listen.endEpisode_records_of_some (l := { l.unboundStream with state := .waiting }) episode]
  simp [Listen.unboundStream]

end

end

/-- The records of one channel's resolution, as O40 lists them (R125, R126, R130). -/
theorem resolve_records_listed (ctx : ChannelContext) (found : Option (Slot × StationId)) (n : Nat) (l : Listen)
    (made : List EventRecord) (hmade : made = (Listen.resolve ctx found n l).records) (opened : l.state ≠ .closed)
    (close : l.close = .none) :
    (∀ slot owner, found = some (slot, owner) → l.bound ≠ some slot →
      made.head? = some (l.boundRecord ctx slot owner) ∧ (l.state = .waiting → l.ring.ci = l.ring.fi → made[1]? = some
        (event .channelStarved 0 (channel := some ctx.channel) (slot := some slot)))) ∧
    (∀ slot, found = none → l.bound = some slot → made.head? = some (l.goneRecord ctx slot) ∧
      (∀ e, l.state ≠ .halted → l.episode = some e → (Listen.resolve ctx found n l).chan.episode = none ∧ made[1]? = some
        (event .dropEpisode e.words (channel := some ctx.channel) (slot := some e.slot) (tag := l.tag)))) ∧
    (2 ≤ n → l.duplicate = false → (Listen.resolve ctx found n l).chan.duplicate = true ∧
      made.getLast? = some (l.duplicateRecord ctx (found.map Prod.fst) n)) ∧
    (2 ≤ n → l.duplicate = true → (Listen.resolve ctx found n l).chan.duplicate = true ∧
      ∀ r ∈ made, r.kind ≠ .duplicateTag) ∧
    (n < 2 → (Listen.resolve ctx found n l).chan.duplicate = false ∧ ∀ r ∈ made, r.kind ≠ .duplicateTag) ∧
    (found = none ∨ (found.map Prod.fst = l.bound) → ∀ r ∈ made, r.kind ≠ .streamBound) ∧
    (found.isSome = true ∨ l.bound = none → ∀ r ∈ made, r.kind ≠ .streamGone) := by
  rw [Listen.resolve_records opened close] at hmade
  have kinds : ∀ r ∈ made, (r ∈ (l.rebind ctx found).records) ∨
      (r.kind = .duplicateTag ∧ 2 ≤ n ∧ l.duplicate = false) := fun r mem => by
    rw [hmade] at mem
    rcases List.mem_append.mp mem with bound | duplicate
    · exact .inl bound
    · split at duplicate
      · rename_i twice
        rw [List.mem_singleton.mp duplicate]
        exact .inr ⟨rfl, twice⟩
      · cases duplicate
  rw [Listen.resolve_chan opened close]
  refine ⟨fun slot owner here new => ?_, fun slot unfound bound => ?_, fun two fresh => ?_, fun two known => ?_,
    fun one => ?_, fun h r mem kind => ?_, fun h r mem kind => ?_⟩
  · rw [here, Listen.rebind_new_records new] at hmade
    rw [hmade]
    refine ⟨rfl, fun waiting empty => ?_⟩
    rw [Listen.rejudge_newly_starved waiting empty]
    rfl
  · subst unfound
    refine ⟨?_, fun e running episode => ?_⟩
    · rw [hmade, Listen.rebind_gone_records bound]
      rfl
    · obtain ⟨ended, records⟩ := Listen.rebind_gone_episode (ctx := ctx) bound running episode
      rw [hmade, records]
      exact ⟨ended, rfl⟩
  · rw [hmade, if_pos ⟨two, fresh⟩, List.getLast?_concat]
    exact ⟨decide_eq_true two, rfl⟩
  · refine ⟨decide_eq_true two, fun r mem => ?_⟩
    rcases kinds r mem with bound | ⟨-, -, fresh⟩
    · exact (Listen.rebind_kinds bound).1
    · rw [known] at fresh
      cases fresh
  · refine ⟨decide_eq_false (by omega), fun r mem => ?_⟩
    rcases kinds r mem with bound | ⟨-, two, -⟩
    · exact (Listen.rebind_kinds bound).1
    · omega
  · rcases kinds r mem with bound | ⟨other, -⟩
    · obtain ⟨slot, owner, here, new⟩ := (Listen.rebind_kinds bound).2.1 kind
      rcases h with unfound | same
      · rw [here] at unfound
        cases unfound
      · rw [here] at same
        exact new same.symm
    · rw [kind] at other
      cases other
  · rcases kinds r mem with bound | ⟨other, -⟩
    · obtain ⟨unfound, was⟩ := (Listen.rebind_kinds bound).2.2 kind
      rcases h with here | unbound
      · rw [unfound] at here
        cases here
      · exact was unbound
    · rw [kind] at other
      cases other

section
variable {s : State}

theorem State.foundSlot_owner {tag : Tag} {slot : Slot} (here : s.smap.entries[slot].tagOf = some tag)
    (lowest : ∀ j : Slot, j < slot → s.smap.entries[j].tagOf ≠ some tag) :
    s.foundSlot tag = some (slot, match s.smap.entries[slot] with
      | .peer owner .. => owner
      | .free | .own .. | .quarantine _ => s.selfId) := by
  rw [State.foundSlot_of_lowest here lowest]
  refine congrArg (fun owner => some (slot, owner)) ?_
  generalize s.smap.entries[slot] = e at here
  cases e with
  | own | peer => rfl
  | free | quarantine => cases here

theorem State.resolved_of_open {k : ListenId} {tag : Tag} (tagged : s.listen[k].tag = some tag)
    (close : s.listen[k].close = .none) (resume : s.listen[k].resumeWaits = false) :
    s.resolved k = Listen.resolve (s.listenContext k) (s.foundSlot tag) (s.slotsWithTag tag).length s.listen[k] := by
  rw [State.resolved_of_quiet (by rw [close]; nofun) resume, State.resolveBy_of_tag tagged]

/-- The state `Listen.applyClose` leaves while a write is outstanding. -/
theorem Listen.applying_eq (l : Listen) : ({ l.applying with episode := none } : Listen) = { l with
    close := .applied, bound := none, expected := none, duplicate := false, waiting := [], episode := none
    state := if l.state = .halted then .halted else .waiting } := by
  have state : (if l.state == .halted then ListenState.halted else .waiting) =
      if l.state = .halted then .halted else .waiting := if_congr beq_iff_eq rfl rfl
  rw [Listen.applying, state]

theorem State.listenWork_quiet (waits : s.boundary.listen = true)
    (quiet : ∀ k : ListenId, s.listen[k].resumeWaits = false ∧ s.listen[k].close ≠ .taken) : s.listenWork =
      (s.setBoundary { s.boundary with listen := false }).eachListen s.resolveBy := by
  rw [State.listenWork_eq waits, State.eachListen_of_only (s := s.setBoundary { s.boundary with listen := false })
    fun k => Listen.applyWaiting_of_none (quiet k).2 (quiet k).1]

theorem State.eachListen_mpt_of_silent {f : ChannelContext → Listen → Out Listen} (s : State)
    (silent : ∀ ctx l, (f ctx l).requests = []) : (s.eachListen f).mpt = s.mpt :=
  State.eachListen_induct (p := fun t => t.mpt = s.mpt)
    (fun t k h => by rw [State.applyListen_port, silent, State.enqueue_nil]; exact h) rfl

theorem State.resolveBy_records (k : ListenId) : (s.resolveBy (s.listenContext k) s.listen[k]).records =
    match s.listen[k].tag with
    | none => []
    | some tag => (Listen.resolve { channel := listenChannel k, stamp := s.stamp } (s.foundSlot tag)
        (s.slotsWithTag tag).length s.listen[k]).records := by
  unfold State.resolveBy
  cases s.listen[k].tag with
  | none => rfl
  | some tag => rfl

end

/-- Settles O40: each channel alone, and the records of `Listen.resolve`. -/
theorem listenBoundaryWorkResolvesTheTag : Obligations.ListenBoundaryWorkResolvesTheTag := by
  refine ⟨fun s => ⟨fun idle => next_of_eq (State.listenWork_idle idle), fun waits => ⟨s.listenWork, rfl,
    s.listenWork_boundary, fun k tag tagged opened close resume => ?_, fun k resume closed => ?_,
    fun k tag tagged halted close resume => ?_, fun k close resume => ⟨fun writing => ?_, fun quiet => ?_⟩,
    fun quiet => ?_, ?_, ?_, ?_, ?_⟩, fun tag slot => State.foundSlot_owner, fun tag => State.foundSlot_of_none,
    fun tag slot => State.mem_slotsWithTag, fun tag => State.slotsWithTag_nodup⟩, fun ctx found n l made h opened close =>
    resolve_records_listed ctx found n l made h opened close⟩
  · have run := State.resolved_of_open tagged close resume
    have still := s.listen[k].rebind_rebound (ctx := s.listenContext k) (found := s.foundSlot tag)
    have none : (Listen.applyWaiting (s.listenContext k) s.listen[k]).requests = [] := by
      rw [Listen.applyWaiting_of_none (by rw [close]; nofun) resume]
      rfl
    rw [State.listenWork_get waits, run, State.listenWork_waiting waits, none]
    refine ⟨fun slot here lowest => ?_, fun untagged => ?_, ?_, ?_, ?_, List.append_nil _⟩
    · rw [State.foundSlot_of_lowest here lowest]
      exact Listen.resolve_found opened close
    · rw [State.foundSlot_of_none untagged]
      exact Listen.resolve_unfound opened close
    all_goals rw [Listen.resolve_chan opened close]
    · exact still.inWrite
    · exact still.waiting
    · exact still.ring
  · have quiet : s.listen[k].close ≠ .taken := by
      rcases closed with h | ⟨-, h⟩ <;> rw [h] <;> nofun
    rw [State.listenWork_get waits, State.resolved_of_quiet quiet resume, State.resolveBy_of_closed]
    · rfl
    · rcases closed with h | ⟨h, -⟩
      · exact .inr (by rw [h]; nofun)
      · exact .inl h
  · have run := Listen.applyWaiting_of_resume (ctx := s.listenContext k) halted close resume
    have now : s.listenWork.listen[k] = (Listen.resolve (s.listenContext k) (s.foundSlot tag)
        (s.slotsWithTag tag).length (s.listen[k].unhalted.pump (s.listenContext k)).chan).chan := by
      rw [State.listenWork_get waits, State.resolved, run, Out.andThen_chan, State.resolveBy_of_tag]
      rw [Listen.pump_tag]
      exact tagged
    have waiting : (s.listen[k].unhalted.pump (s.listenContext k)).chan.state = .waiting := by
      rw [Listen.pump_state]
      rfl
    have unbound : (s.listen[k].unhalted.pump (s.listenContext k)).chan.bound = none := by
      rw [Listen.pump_bound]
      rfl
    have without : (s.listen[k].unhalted.pump (s.listenContext k)).chan.close = .none := by
      rw [Listen.pump_close]
      exact close
    have ci : (s.listen[k].unhalted.pump (s.listenContext k)).chan.ring.ci = s.listen[k].ring.ci := by
      rw [Listen.pump_ci]
      rfl
    have fi : (s.listen[k].unhalted.pump (s.listenContext k)).chan.ring.fi = s.listen[k].ring.fi := by
      rw [Listen.pump_fi]
      rfl
    have cause : (s.listen[k].unhalted.pump (s.listenContext k)).chan.haltCause = none := by
      rw [Listen.pump_haltCause]
      rfl
    have resumed : (s.listen[k].unhalted.pump (s.listenContext k)).chan.resumeWaits = false := by
      rw [Listen.pump_resumeWaits]
      rfl
    have asked : (Listen.applyWaiting (s.listenContext k) s.listen[k]).requests =
        (s.listen[k].unhalted.pump (s.listenContext k)).requests := by rw [run]
    rw [State.listenWork_waiting waits, asked, now]
    refine ⟨rfl, ?_⟩
    have completes : ∀ code, s.hpt.mailbox = .busy code → s.listenWork.hpt.mailbox = .done .ok code := fun code =>
      State.listenWork_completes waits k (by rw [run])
    generalize (s.listen[k].unhalted.pump (s.listenContext k)).chan = m at waiting unbound without ci fi cause resumed ⊢
    have opened : m.state ≠ .closed := by rw [waiting]; nofun
    have still := m.rebind_rebound (ctx := s.listenContext k) (found := s.foundSlot tag)
    refine ⟨?_, ?_, ?_, ?_, completes, fun slot here lowest => ?_, fun untagged => ?_⟩
    · rw [Listen.resolve_chan opened without]
      exact still.haltCause.trans cause
    · rw [Listen.resolve_chan opened without]
      exact still.resumeWaits.trans resumed
    · rw [Listen.resolve_chan opened without]
      exact (congrArg Ring.ci still.ring).trans ci
    · rw [Listen.resolve_chan opened without]
      exact (congrArg Ring.fi still.ring).trans fi
    · rw [State.foundSlot_of_lowest here lowest]
      obtain ⟨bound, -, new⟩ := Listen.resolve_found (ctx := s.listenContext k) (slot := slot)
        (owner := (s.smap.entries[slot].ownerOf s.selfId).getD 0) (n := (s.slotsWithTag tag).length) opened without
      obtain ⟨expected, state⟩ := new (by rw [unbound]; nofun)
      refine ⟨bound, expected, ?_⟩
      rw [state, if_neg (by rw [waiting]; nofun), ci, fi]
    · rw [State.foundSlot_of_none untagged]
      exact Listen.resolve_unbound without waiting unbound
  · obtain ⟨chan, -, -⟩ := Listen.applyClose_of_writing (s.listenContext k) writing
    rw [State.listenWork_get waits, State.resolved, Listen.applyWaiting_of_close close resume, Out.andThen_chan, chan,
      State.resolveBy_of_closed (.inr (by nofun)), Out.only_chan, Listen.applying_eq]
  · obtain ⟨chan, requests, done⟩ := Listen.applyClose_of_quiet (s.listenContext k) quiet
    have closes := s.listen[k].toChannelCore.closes_close (s.listenContext k) s.listen[k].lastSequence
    have run : Listen.applyWaiting (s.listenContext k) s.listen[k] = Listen.applyClose (s.listenContext k) s.listen[k] :=
      Listen.applyWaiting_of_close close resume
    have now : s.listenWork.listen[k] = ({ s.listen[k].applying with episode := none } : Listen).closedAs
        (s.listen[k].toChannelCore.close (s.listenContext k) s.listen[k].lastSequence).chan := by
      rw [State.listenWork_get waits, State.resolved, run, Out.andThen_chan, chan,
        State.resolveBy_of_closed (.inl (by rfl)), Out.only_chan]
    rw [now, State.listenWork_waiting waits, run, requests]
    refine ⟨rfl, rfl, rfl, rfl, rfl, rfl, rfl, rfl, rfl, rfl, closes.current, closes.ahead, fun code =>
      State.listenWork_completes waits k (by rw [run]; exact done), fun held used => ?_, fun unused => ?_⟩
    · obtain ⟨d, held⟩ := Option.isSome_iff_exists.mp held
      rw [ChannelCore.close_of_used _ _ held used, completionWords, if_neg used.ne']
      exact ⟨rfl, rfl⟩
    · rw [ChannelCore.close_of_unused _ _ unused]
      exact ⟨rfl, List.append_nil _⟩
  · rw [State.listenWork_quiet waits quiet]
    have still : ∀ k : ListenId, (s.resolveBy ((s.setBoundary { s.boundary with listen := false }).listenContext k)
        (s.setBoundary { s.boundary with listen := false }).listen[k]).records = match s.listen[k].tag with
          | none => []
          | some tag => (Listen.resolve { channel := listenChannel k, stamp := s.stamp } (s.foundSlot tag)
              (s.slotsWithTag tag).length s.listen[k]).records := fun k => s.resolveBy_records k
    refine ⟨State.eachListen_mpt_of_silent _ fun ctx l => (State.resolveBy_silent ctx l).1, ?_, ?_⟩
    · rw [State.eachListen_mailbox, if_neg]
      · rfl
      · rintro ⟨k, done⟩
        rw [(State.resolveBy_silent _ _).2] at done
        cases done
    · rw [State.eachListen_evq]
      simp only [still]
      exact State.postAll_evq_congr (by rfl) (by rfl) (by rfl) _
  · rw [State.listenWork_eq waits, State.eachListen_smap, State.eachListen_smap]
    rfl
  · rw [State.listenWork_eq waits, State.eachListen_cle, State.eachListen_cle]
    rfl
  · rw [State.listenWork_eq waits, State.eachListen_talk, State.eachListen_talk]
    rfl
  · rw [State.listenWork_eq waits, State.eachListen_stc, State.eachListen_stc]
    rfl

end Sys2Proof.Machine

/-! Steps 2 to 6 of the Slot Map's boundary work, each entry in turn: silence, the monitor, the claim message, the abandon
set and the count of a quarantine (R53 to R61). -/

namespace Sys2Proof.Machine

/-! ## The channel at a slot (R42, R115) -/

section
variable {s : State} {slot : Slot}

theorem State.talkAt_of_only {k : TalkId} (atSlot : s.talk[k].bound = some slot)
    (alone : ∀ j : TalkId, j ≠ k → s.talk[j].bound ≠ some slot) : s.talkAt slot = some k := by
  cases found : s.talkAt slot with
  | none => exact absurd atSlot (State.talkAt_none found k)
  | some j =>
    by_cases same : j = k
    · rw [same]
    · exact absurd (State.talkAt_some found) (alone j same)

theorem Talk.unbind_eq (t : Talk) : t.unbind =
    { t with
      bound := none, sequence := none, endWait := false
      state := if t.state = .running ∨ t.state = .starved then .armed else t.state } := by
  have state : (if t.state == .running || t.state == .starved then TalkState.armed else t.state) =
      if t.state = .running ∨ t.state = .starved then .armed else t.state := if_congr (by simp) rfl rfl
  rw [Talk.unbind, state]

/-- The channel alone at the slot is unbound, and nothing else changes (R59, R60, R115). -/
theorem State.slotUnbound_of_only {k : TalkId} (atSlot : s.talk[k].bound = some slot)
    (alone : ∀ j : TalkId, j ≠ k → s.talk[j].bound ≠ some slot) :
    s.slotUnbound slot = s.setTalk k s.talk[k].unbind := by
  unfold State.slotUnbound
  rw [State.talkAt_of_only atSlot alone]
  exact State.applyTalk_only rfl

/-! ## Step 1 without evidence, and step 2 (R53) -/

theorem State.evidenceStep_unheard (h : s.evidence slot = none) : s.evidenceStep slot = s := by
  simp only [State.evidenceStep, h]

theorem State.silenceStep_heard (h : s.evidence slot ≠ none) : s.silenceStep slot = s := by
  obtain ⟨heard, h⟩ := Option.ne_none_iff_exists'.mp h
  simp only [State.silenceStep, h]

section
variable {owner : StationId} {tag : Tag} {silent mismatches : Nat} {rival : Option StationId}

theorem State.silenceStep_peer (h : s.evidence slot = none)
    (entry : s.smap.entries[slot] = .peer owner tag silent rival) :
    s.silenceStep slot = s.setEntry slot (.silentRound owner tag silent none) := by
  simp only [State.silenceStep, h, entry]

/-- Only a peer falls silent (R53). -/
theorem State.silenceStep_other (other : ∀ owner tag silent rival, s.smap.entries[slot] ≠ .peer owner tag silent rival) :
    s.silenceStep slot = s := by
  unfold State.silenceStep
  split
  next entry => exact absurd entry (other _ _ _ _)
  next => rfl

/-! ## Step 3 (R54, R55) -/

/-- Step 3 looks at own entries only. -/
theorem State.ownStep_other (other : s.smap.entries[slot].isOwn = false) : s.ownStep slot = s := by
  unfold State.ownStep
  split
  next entry => simp [entry, Entry.isOwn] at other
  all_goals rfl

/-- The rival an own slot keeps: none without evidence (R54). -/
def State.keptRival (s : State) (slot : Slot) (rival : Option StationId) : Option StationId :=
  if s.evidence slot = none then none else rival

theorem State.keptRival_eq (s : State) (slot : Slot) (rival : Option StationId) :
    (if (s.evidence slot).isSome then rival else none) = s.keptRival slot rival := by
  unfold State.keptRival
  cases s.evidence slot <;> rfl

variable (entry : s.smap.entries[slot] = .own tag rival mismatches)
include entry

theorem State.ownStep_match {own : Tag} (seen : s.smap.observations[slot] = some (.sentMatch own)) :
    s.ownStep slot = s.setEntry slot (.own tag (s.keptRival slot rival) 0) := by
  simp only [State.ownStep, entry, seen, Option.bind_some, Observation.monitor, State.keptRival_eq]

theorem State.ownStep_first_mismatch {heard : Option (StationId × Tag)}
    (seen : s.smap.observations[slot] = some (.sentMismatch heard)) (first : mismatches = 0) :
    s.ownStep slot = s.setEntry slot (.own tag (s.keptRival slot rival) 1) := by
  simp only [State.ownStep, entry, seen, Option.bind_some, Observation.monitor, State.keptRival_eq, first, if_true]

/-- The second mismatch yields the slot (R55). -/
theorem State.ownStep_second_mismatch {heard : Option (StationId × Tag)}
    (seen : s.smap.observations[slot] = some (.sentMismatch heard)) (later : mismatches ≠ 0) :
    s.ownStep slot = (s.setEntry slot (.quarantine 8)).slotLost slot .collision none := by
  simp only [State.ownStep, entry, seen, Option.bind_some, Observation.monitor, if_neg later, Config.lease]

theorem State.ownStep_unsent (matched : ∀ own, s.smap.observations[slot] ≠ some (.sentMatch own))
    (mismatched : ∀ heard, s.smap.observations[slot] ≠ some (.sentMismatch heard)) :
    s.ownStep slot = s.setEntry slot (.own tag (s.keptRival slot rival) mismatches) := by
  have unsent : s.smap.observations[slot].bind Observation.monitor = none := by
    cases seen : s.smap.observations[slot] with
    | none => rfl
    | some o =>
      cases o with
      | silent | bad | valid => rfl
      | sentMatch own => exact absurd seen (matched own)
      | sentMismatch heard => exact absurd seen (mismatched heard)
  simp only [State.ownStep, entry, unsent, State.keptRival_eq]

end

/-! ## Step 4 (R56 to R59) -/

section
variable {m : ClaimMessage}

theorem State.claimStep_no_message (none : s.smap.message = Option.none) : s.claimStep slot = s := by
  simp only [State.claimStep, none]

/-- An entry in QUARANTINE is none that step 4 changes (R56, R58). -/
theorem State.claimStep_quarantine {n : Nat} (entry : s.smap.entries[slot] = .quarantine n) : s.claimStep slot = s := by
  unfold State.claimStep
  split
  · rfl
  · split
    · rfl
    · split
      · rfl
      · split
        next free => simp [entry] at free
        next peer => simp [entry] at peer
        next own => simp [entry] at own
        next => rfl

variable (message : s.smap.message = some m) (here : m.slot = slot)
include message here

theorem State.claimStep_lost (own : m.station = s.selfId) (lost : s.smap.part ≠ .won) : s.claimStep slot = s := by
  simp only [State.claimStep, message, ne_eq, here, not_true_eq_false, if_false, if_pos (And.intro own lost)]

/-- A CLAIM is refused unless the entry is FREE and no burst was heard (R56). -/
theorem State.claimStep_refused (claim : m.kind = .claim)
    (taken : s.smap.entries[slot] ≠ .free ∨ s.evidence slot ≠ none) : s.claimStep slot = s := by
  unfold State.claimStep
  simp only [message, ne_eq, here, not_true_eq_false, if_false, claim]
  split
  · rfl
  · split
    next entry =>
      have heard : (s.evidence slot).isSome = true :=
        Option.isSome_iff_ne_none.mpr (taken.resolve_left (not_not_intro entry))
      rw [if_pos heard]
    next same _ => cases same
    next same _ => cases same
    next => rfl

theorem State.claimStep_peer_claim (claim : m.kind = .claim) (entry : s.smap.entries[slot] = .free)
    (unheard : s.evidence slot = none) (other : m.station ≠ s.selfId) :
    s.claimStep slot = s.setEntry slot (.peer m.station m.tag 0 none) := by
  simp [-Fin.getElem_fin, State.claimStep, message, here, claim, entry, unheard, other]

theorem State.claimStep_own_claim (claim : m.kind = .claim) (entry : s.smap.entries[slot] = .free)
    (unheard : s.evidence slot = none) (own : m.station = s.selfId) (won : s.smap.part = .won) :
    s.claimStep slot = s.offerBinding slot m.tag := by
  simp [-Fin.getElem_fin, State.claimStep, message, here, claim, entry, unheard, own, won]

theorem State.claimStep_peer_release (release : m.kind = .release) (other : m.station ≠ s.selfId) {tag : Tag}
    {silent : Nat} {rival : Option StationId} (entry : s.smap.entries[slot] = .peer m.station tag silent rival) :
    s.claimStep slot = s.setEntry slot .free := by
  simp [-Fin.getElem_fin, State.claimStep, message, here, release, entry, other]

/-- A peer's RELEASE frees no entry but its own (R59). -/
theorem State.claimStep_foreign_release (release : m.kind = .release) (other : m.station ≠ s.selfId)
    (foreign : ∀ tag silent rival, s.smap.entries[slot] ≠ .peer m.station tag silent rival) :
    s.claimStep slot = s := by
  unfold State.claimStep
  simp only [message, ne_eq, here, not_true_eq_false, if_false, other, false_and, release]
  split
  next same _ => cases same
  next owner tag silent rival _ entry =>
    rw [if_neg]
    rintro rfl
    exact foreign _ _ _ entry
  next => rfl
  next => rfl

theorem State.claimStep_own_release (release : m.kind = .release) (own : m.station = s.selfId)
    (won : s.smap.part = .won) {tag : Tag} {rival : Option StationId} {mismatches : Nat}
    (entry : s.smap.entries[slot] = .own tag rival mismatches) :
    s.claimStep slot = (s.setEntry slot .free).slotUnbound slot := by
  simp [-Fin.getElem_fin, State.claimStep, message, here, release, entry, own, won]

end

/-! ## The binding of the claiming channel (R57, R110) -/

/-- The channel of the SENT-WON CLAIM, where every SENT-WON request is of one channel. -/
theorem State.claimingChannel_of_only {r : ClaimRequest} (member : r ∈ s.cle.queue) (claim : r.kind = .claim)
    (won : r.phase = .sentWon) (alone : ∀ q ∈ s.cle.queue, q.phase = .sentWon → q.channel = r.channel) :
    s.claimingChannel = some r.channel := by
  unfold State.claimingChannel
  cases found : s.cle.queue.find? fun r => r.kind == .claim && r.phase == .sentWon with
  | none => simpa [claim, won] using List.find?_eq_none.mp found r member
  | some q =>
    have sentWon : q.phase = .sentWon := by
      have := List.find?_some found
      simp only [Bool.and_eq_true, beq_iff_eq] at this
      exact this.2
    exact congrArg some (alone q (List.mem_of_find?_eq_some found) sentWon)

section
variable {k : TalkId} (claiming : s.claimingChannel = some k) {tag : Tag}
include claiming

/-- A channel with a CLOSE taken declines the binding, and the slot is quarantined (R57, R110). -/
theorem State.offerBinding_closing (closing : s.talk[k].closeTaken = true) :
    s.offerBinding slot tag = s.setEntry slot (.quarantine 8) := by
  simp only [State.offerBinding, claiming, Talk.takesBinding, closing, Bool.not_true, Bool.false_and]
  rfl

theorem State.offerBinding_binds (takes : s.talk[k].takesBinding = true) :
    s.offerBinding slot tag = (s.setEntry slot (.own tag none 0)).applyTalk k fun ctx => Talk.bind ctx slot := by
  simp only [State.offerBinding, claiming, takes, if_true]

end

theorem Talk.bind_chan (ctx : ChannelContext) (slot : Slot) (t : Talk) : (t.bind ctx slot).chan =
    Talk.due { t with bound := some slot, sequence := some 0 } := Talk.rejudge_due ctx _

/-! ## Steps 5 and 6 (R60, R61) -/

theorem State.abandonStep_own {tag : Tag} {rival : Option StationId} {mismatches : Nat} (asked : slot ∈ s.smap.abandon)
    (entry : s.smap.entries[slot] = .own tag rival mismatches) :
    s.abandonStep slot = (s.setEntry slot (.quarantine 8)).slotUnbound slot := by
  simp only [State.abandonStep, List.contains_iff_mem, asked, if_true, entry, Config.lease]

theorem State.abandonStep_other (other : slot ∉ s.smap.abandon ∨ s.smap.entries[slot].isOwn = false) :
    s.abandonStep slot = s := by
  unfold State.abandonStep
  split
  next asked =>
    have foreign := other.resolve_left (not_not_intro (List.contains_iff_mem.mp asked))
    split
    next entry => simp [entry, Entry.isOwn] at foreign
    all_goals rfl
  next => rfl

theorem State.countdownStep_counts {before : Entry} {n : Nat} (entry : s.smap.entries[slot] = .quarantine n)
    (quarantined : before.isQuarantine = true) (unheard : s.evidence slot = none) :
    s.countdownStep slot before = s.setEntry slot (if n ≤ 1 then .free else .quarantine (n - 1)) := by
  simp only [State.countdownStep, entry, quarantined, unheard, Option.isNone_none, Bool.and_self, if_true]

/-- An entry that came into QUARANTINE at this boundary does not count down (R61). -/
theorem State.countdownStep_fresh {before : Entry} (fresh : before.isQuarantine = false ∨ s.evidence slot ≠ none) :
    s.countdownStep slot before = s := by
  unfold State.countdownStep
  split
  · rw [if_neg]
    rcases fresh with other | heard
    · simp [other]
    · simp [heard]
  all_goals rfl

end

/-- Settles O34: step 2 by the evidence and the entry, step 3 by the monitor's result. -/
theorem silenceAndMonitorChangeTheEntry : Obligations.SilenceAndMonitorChangeTheEntry := by
  intro s slot
  refine ⟨fun owner tag silent rival entry unheard => ?_, State.silenceStep_heard,
    fun tag rival mismatches kept entry keeps => ?_⟩
  · rw [State.silenceStep_peer unheard entry]
    by_cases last : silent + 1 < 8
    · rw [if_pos last, Entry.silentRound_of_lt _ _ _ (by omega)]
    · rw [if_neg last, Entry.silentRound_of_ge _ _ _ (by omega)]
  · subst keeps
    refine ⟨State.silenceStep_other fun _ _ _ _ peer => ?_, fun own seen => State.ownStep_match entry seen,
      fun heard seen first => State.ownStep_first_mismatch entry seen first,
      fun heard seen second => State.ownStep_second_mismatch entry seen (by omega),
      fun matched mismatched => State.ownStep_unsent entry matched mismatched⟩
    rw [entry] at peer
    cases peer

/-- Settles O35: by the message's kind and sender, the entry and the evidence; the binding is R106's state of the channel
bound at sequence 0. -/
theorem claimMessageChangesTheEntry : Obligations.ClaimMessageChangesTheEntry := by
  intro s slot m message here
  refine ⟨State.claimStep_lost message here, State.claimStep_refused message here,
    fun claim entry unheard => ⟨State.claimStep_peer_claim message here claim entry unheard,
      fun own won r member isClaim sentWon alone => ?_⟩,
    fun release other => ⟨fun _ _ _ => State.claimStep_peer_release message here release other,
      State.claimStep_foreign_release message here release other⟩,
    fun release own won tag rival mismatches k entry atSlot alone => ?_⟩
  · have claiming := State.claimingChannel_of_only member isClaim sentWon alone
    rw [State.claimStep_own_claim message here claim entry unheard own won]
    refine ⟨State.offerBinding_closing claiming, fun kept unbound idle => ?_⟩
    rw [State.offerBinding_binds claiming ((Talk.takesBinding_iff _).mpr ⟨kept, unbound, idle⟩)]
    have chan : ((s.setEntry slot (.own m.tag none 0)).applyTalk r.channel fun ctx => Talk.bind ctx slot).talk[r.channel] =
        Talk.due { s.talk[r.channel] with bound := some slot, sequence := some 0 } := by
      rw [State.applyTalk_get, Talk.bind_chan]
      rfl
    rw [chan]
    refine ⟨?_, rfl, rfl, fun halted => (if_pos (Or.inr halted)).trans halted, fun armed waits => ?_, rfl, rfl⟩
    · rw [State.applyTalk_smap, State.setEntry_get, if_pos rfl]
    · have walks : ¬ (s.talk[r.channel].state = .closed ∨ s.talk[r.channel].state = .halted) := by
        rw [armed]
        decide
      refine (if_neg walks).trans ((if_neg (Option.some_ne_none slot)).trans (if_congr ?_ rfl rfl))
      simp [-Fin.getElem_fin, waits]
  · rw [State.claimStep_own_release message here release own won entry]
    rw [State.slotUnbound_of_only (s := s.setEntry slot .free) atSlot alone, Talk.unbind_eq]
    rfl

end Sys2Proof.Machine

/-! Which entry the six steps leave in QUARANTINE at 8 (R55, R57, R60, R61), and the Slot Map's boundary work as a whole
(R47, R48, R62). -/

namespace Sys2Proof.Machine

/-! ## The last steps at a slot that has come into QUARANTINE (R61) -/

section
variable (s : State) (slot : Slot)

/-- The slot's state after step 3. -/
def State.monitored : State := ((s.evidenceStep slot).silenceStep slot).ownStep slot

/-- The slot's state after step 4. -/
def State.claimed : State := (s.monitored slot).claimStep slot

theorem State.worksOn_monitored : s.WorksOn (· = slot) (s.monitored slot) :=
  (s.worksOn_evidenceStep slot).trans <| (State.worksOn_silenceStep _ slot).trans <| State.worksOn_ownStep _ slot

theorem State.worksOn_claimed : s.WorksOn (· = slot) (s.claimed slot) :=
  (s.worksOn_monitored slot).trans (State.worksOn_claimStep _ slot)

theorem State.slotStep_eq :
    s.slotStep slot = ((s.claimed slot).abandonStep slot).countdownStep slot s.smap.entries[slot] := rfl

/-- The entry was not in QUARANTINE as the boundary came, or a burst has been heard in its slot. -/
def State.freshAt : Prop := s.smap.entries[slot].isQuarantine = false ∨ s.evidence slot ≠ none

variable {s slot}

theorem State.slotStep_of_abandoned (fresh : s.freshAt slot) :
    s.slotStep slot = (s.claimed slot).abandonStep slot := by
  refine State.countdownStep_fresh (fresh.imp_right fun heard => ?_)
  have works := (s.worksOn_claimed slot).trans (State.worksOn_abandonStep _ slot)
  exact works.evidence slot ▸ heard

theorem State.slotStep_of_claimed (fresh : s.freshAt slot) {n : Nat}
    (entry : (s.claimed slot).smap.entries[slot] = .quarantine n) :
    (s.slotStep slot).smap.entries[slot] = .quarantine n := by
  rw [State.slotStep_of_abandoned fresh, State.abandonStep_other (.inr (by rw [entry]; rfl)), entry]

/-- The second mismatch yields the slot, and no later step changes it (R55, R61). -/
theorem State.slotStep_of_monitored (fresh : s.freshAt slot) {n : Nat}
    (entry : (s.monitored slot).smap.entries[slot] = .quarantine n) :
    (s.slotStep slot).smap.entries[slot] = .quarantine n := by
  refine State.slotStep_of_claimed fresh ?_
  rw [State.claimed, State.claimStep_quarantine entry, entry]

theorem State.slotLost_entry (e : Entry) (cause : LossCause) (station : Option StationId) :
    ((s.setEntry slot e).slotLost slot cause station).smap.entries[slot] = e := by
  rw [(State.worksOn_slotLost (p := fun _ => False) _ slot cause station).others slot id, State.setEntry_get, if_pos rfl]

theorem State.slotUnbound_entry (e : Entry) : ((s.setEntry slot e).slotUnbound slot).smap.entries[slot] = e := by
  rw [(State.worksOn_slotUnbound (p := fun _ => False) _ slot).others slot id, State.setEntry_get, if_pos rfl]

/-- Without evidence steps 1 to 3 leave an entry that is neither a peer's nor own. -/
theorem State.monitored_of_unowned (unheard : s.evidence slot = none)
    (peer : ∀ owner tag silent rival, s.smap.entries[slot] ≠ .peer owner tag silent rival)
    (own : s.smap.entries[slot].isOwn = false) : s.monitored slot = s := by
  rw [State.monitored, State.evidenceStep_unheard unheard, State.silenceStep_other peer, State.ownStep_other own]

/-- Without evidence the first four steps leave a QUARANTINE as it is. -/
theorem State.claimed_of_quarantine (unheard : s.evidence slot = none) {n : Nat}
    (entry : s.smap.entries[slot] = .quarantine n) : s.claimed slot = s := by
  have same := State.monitored_of_unowned unheard (by simp [entry]) (by rw [entry]; rfl)
  rw [State.claimed, same, State.claimStep_quarantine entry]

/-- A slot that is own after step 2 was not counting down. -/
theorem State.freshAt_of_own {u : State} (after : u = (s.evidenceStep slot).silenceStep slot)
    (own : u.smap.entries[slot].isOwn = true) : s.freshAt slot := by
  by_contra counting
  obtain ⟨quarantined, unheard⟩ := not_or.mp counting
  have unheard := of_not_not unheard
  cases entry : s.smap.entries[slot] with
  | free | own | peer => simp [entry, Entry.isQuarantine] at quarantined
  | quarantine n =>
    rw [after, State.evidenceStep_unheard unheard, State.silenceStep_other (by simp [entry]), entry] at own
    cases own

/-- A slot that is own after step 4 was not counting down. -/
theorem State.freshAt_of_claimed (own : (s.claimed slot).smap.entries[slot].isOwn = true) : s.freshAt slot := by
  by_contra counting
  obtain ⟨quarantined, unheard⟩ := not_or.mp counting
  cases entry : s.smap.entries[slot] with
  | free | own | peer => simp [entry, Entry.isQuarantine] at quarantined
  | quarantine n =>
    rw [State.claimed_of_quarantine (of_not_not unheard) entry, entry] at own
    cases own

/-- Step 5 has the last word on an own slot of the abandon set (R60, R61). -/
theorem State.slotStep_of_asked (asked : slot ∈ s.smap.abandon) {tag : Tag} {rival : Option StationId} {mismatches : Nat}
    (entry : (s.claimed slot).smap.entries[slot] = .own tag rival mismatches) :
    (s.slotStep slot).smap.entries[slot] = .quarantine 8 := by
  rw [State.slotStep_of_abandoned (State.freshAt_of_claimed (by rw [entry]; rfl)),
    State.abandonStep_own (by rw [(s.worksOn_claimed slot).abandon]; exact asked) entry, State.slotUnbound_entry]

/-- A second mismatch has the last word on an own slot (R55, R61). -/
theorem State.slotStep_of_mismatch {tag : Tag} {rival : Option StationId} {mismatches : Nat}
    {heard : Option (StationId × Tag)} {u : State} (after : u = (s.evidenceStep slot).silenceStep slot)
    (entry : u.smap.entries[slot] = .own tag rival mismatches) (later : 1 ≤ mismatches)
    (seen : s.smap.observations[slot] = some (.sentMismatch heard)) :
    (s.slotStep slot).smap.entries[slot] = .quarantine 8 := by
  refine State.slotStep_of_monitored (State.freshAt_of_own after (by rw [entry]; rfl)) ?_
  have works : s.WorksOn (· = slot) u := by
    rw [after]
    exact (s.worksOn_evidenceStep slot).trans (State.worksOn_silenceStep _ slot)
  rw [State.monitored, ← after, State.ownStep_second_mismatch entry (works.observations ▸ seen) (by omega),
    State.slotLost_entry]

end

/-- Settles O36: steps 5 and 6 by the entry; an entry that step 3, 4 or 5 puts into QUARANTINE is not one that step 6
counts. -/
theorem abandonAndQuarantineChangeTheEntry : Obligations.AbandonAndQuarantineChangeTheEntry := by
  intro s slot
  refine ⟨fun asked tag rival mismatches k entry atSlot alone => ?_, fun other => ?_, fun n entry unheard counts => ?_,
    fun tag mismatches heard entry second seen silent => ?_,
    fun u tag rival mismatches heard after entry later seen => State.slotStep_of_mismatch after entry later seen,
    fun u tag rival mismatches after entry asked => State.slotStep_of_asked asked (after ▸ entry),
    fun tag rival mismatches own entry asked seen silent => ?_,
    fun m r message claim here own won entry unheard member isClaim sentWon alone closing => ?_⟩
  · rw [State.abandonStep_own asked entry]
    rw [State.slotUnbound_of_only (s := s.setEntry slot (.quarantine 8)) atSlot alone, Talk.unbind_eq]
    rfl
  · refine State.abandonStep_other (other.imp_right fun foreign => ?_)
    cases entry : s.smap.entries[slot] with
    | own tag rival mismatches => exact absurd entry (foreign _ _ _)
    | free | peer | quarantine => rfl
  · rw [State.slotStep_eq, State.claimed_of_quarantine unheard entry, State.abandonStep_other (.inr (by rw [entry]; rfl)),
      State.countdownStep_counts entry (by rw [entry]; rfl) unheard]
    exact congrArg (s.setEntry slot) (if_congr (by omega) rfl rfl)
  · subst silent
    have unheard : s.evidence slot = none := State.evidence_of_observed seen
    have same : s = (s.evidenceStep slot).silenceStep slot := by
      rw [State.evidenceStep_unheard unheard, State.silenceStep_other (by simp [entry])]
    exact State.slotStep_of_mismatch same entry second.ge seen
  · have heard : s.evidence slot = some (s.selfId, own) := State.evidence_of_observed seen
    have first : s.evidenceStep slot = s.setEntry slot (.own tag none mismatches) := State.evidenceStep_own_heard heard entry
    have works := s.worksOn_setEntry slot (.own tag none mismatches)
    have quiet : (s.setEntry slot (.own tag none mismatches)).silenceStep slot = s.setEntry slot (.own tag none mismatches) :=
      State.silenceStep_heard (by rw [works.evidence, heard]; simp)
    have monitored : s.monitored slot = (s.setEntry slot (.own tag none mismatches)).setEntry slot
        (.own tag ((s.setEntry slot (.own tag none mismatches)).keptRival slot none) 0) := by
      rw [State.monitored, first, quiet]
      exact State.ownStep_match (by rw [State.setEntry_get, if_pos rfl]) (by rw [works.observations, seen])
    refine State.slotStep_of_asked asked (tag := tag)
      (rival := (s.setEntry slot (.own tag none mismatches)).keptRival slot none) (mismatches := 0) ?_
    rw [State.claimed, State.claimStep_no_message (by rw [(s.worksOn_monitored slot).message, silent]), monitored,
      State.setEntry_get, if_pos rfl]
  · refine State.slotStep_of_claimed (.inl (by rw [entry]; rfl)) ?_
    have claimed : s.claimed slot = s.setEntry slot (.quarantine 8) := by
      rw [State.claimed, State.monitored_of_unowned unheard (by simp [entry]) (by rw [entry]; rfl),
        State.claimStep_own_claim message here claim entry unheard own won]
      exact State.offerBinding_closing (State.claimingChannel_of_only member isClaim sentWon alone) closing
    rw [claimed, State.setEntry_get, if_pos rfl]

/-! ## The duplicate-id scan (R48) -/

section
variable {s : State}

theorem State.usedSlots_sorted : s.usedSlots.Pairwise (· < ·) := (List.pairwise_lt_finRange 32).filter _

/-- What the scan finds in one slot (R48). -/
def State.duplicateIn (s : State) (i : Slot) : Option DuplicateReport :=
  match s.smap.observations[i] with
  | some (.valid owner tag) => if owner = s.selfId then some { slot := i, tag } else none
  | _ => none

theorem State.duplicateScan_eq : s.duplicateScan = s.usedSlots.findSome? s.duplicateIn := rfl

theorem State.duplicateIn_eq_some {i : Slot} {report : DuplicateReport} : s.duplicateIn i = some report ↔
    s.smap.observations[i] = some (.valid s.selfId report.tag) ∧ report.slot = i := by
  obtain ⟨slot, tag⟩ := report
  unfold State.duplicateIn
  split
  next owner heard seen =>
    simp only [seen, Option.ite_none_right_eq_some, Option.some.injEq, DuplicateReport.mk.injEq, Observation.valid.injEq]
    grind
  next other =>
    simp only [reduceCtorEq, false_iff]
    exact fun found => other _ _ found.1

theorem State.duplicateScan_of_lowest {slot : Slot} {tag : Tag} (used : slot.val < s.slots)
    (seen : s.smap.observations[slot] = some (.valid s.selfId tag))
    (lowest : ∀ (j : Slot) (other : Tag), j < slot → s.smap.observations[j] ≠ some (.valid s.selfId other)) :
    s.duplicateScan = some { slot, tag } := by
  have member : slot ∈ s.usedSlots := State.mem_usedSlots.mpr used
  have here : s.duplicateIn slot = some { slot, tag } := State.duplicateIn_eq_some.mpr ⟨seen, rfl⟩
  rw [State.duplicateScan_eq]
  cases found : s.usedSlots.findSome? s.duplicateIn with
  | none =>
    rw [List.findSome?_eq_none_iff.mp found slot member] at here
    cases here
  | some report =>
    obtain ⟨before, i, after, split, at_i, earlier⟩ := List.findSome?_eq_some_iff.mp found
    have sorted := s.usedSlots_sorted
    rw [split] at member sorted
    obtain rfl : slot = i := by
      rcases List.mem_append.mp member with first | rest
      · rw [earlier slot first] at here
        cases here
      · rcases List.mem_cons.mp rest with same | later
        · exact same
        · have below : i < slot := (List.pairwise_cons.mp (List.pairwise_append.mp sorted).2.1).1 slot later
          exact absurd (State.duplicateIn_eq_some.mp at_i).1 (lowest i report.tag below)
    rw [← at_i, here]

theorem State.duplicateScan_of_none
    (foreign : ∀ (j : Slot) (tag : Tag), j.val < s.slots → s.smap.observations[j] ≠ some (.valid s.selfId tag)) :
    s.duplicateScan = none := by
  rw [State.duplicateScan_eq, List.findSome?_eq_none_iff]
  intro i member
  by_contra found
  obtain ⟨report, found⟩ := Option.ne_none_iff_exists'.mp found
  exact foreign i report.tag (State.mem_usedSlots.mp member) (State.duplicateIn_eq_some.mp found).1

/-! ## The boundary work (R47, R62) -/

theorem exec_slotMapBoundaryWork (s : State) : exec .slotMapBoundaryWork s = .next s.slotMapWork := rfl

/-- SMAP's share of the boundary is taken up (R8). -/
def State.mapTaken (s : State) : State := s.setBoundary { s.boundary with slotMap := false }

theorem State.slotMapWork_of_report (waits : s.boundary.slotMap = true) {report : DuplicateReport}
    (found : s.duplicateScan = some report) :
    s.slotMapWork = s.mapTaken.setStc { s.stc with report := some report } := by
  have scan : s.mapTaken.duplicateScan = some report := found
  unfold State.slotMapWork
  rw [if_pos waits]
  change (match s.mapTaken.duplicateScan with | some _ => _ | none => _) = _
  rw [scan]
  rfl

theorem State.slotMapWork_of_no_report (waits : s.boundary.slotMap = true) (found : s.duplicateScan = none) :
    s.slotMapWork = (s.usedSlots.foldl State.slotStep s.mapTaken).settle := by
  have scan : s.mapTaken.duplicateScan = none := found
  unfold State.slotMapWork
  rw [if_pos waits]
  change (match s.mapTaken.duplicateScan with | some _ => _ | none => _) = _
  rw [scan]
  rfl

end

/-- Settles O32: the scan finds the lowest slot with the own id or nothing; what the six steps at the used slots leave
alone, the settled notice leaves alone too. -/
theorem slotMapWorkScansThenSettles : Obligations.SlotMapWorkScansThenSettles := by
  refine fun s => ⟨fun idle => ?_, fun waits => ⟨fun slot tag used seen lowest => ?_, fun foreign => ?_⟩, fun slot => rfl⟩
  · rw [exec_slotMapBoundaryWork, State.slotMapWork_idle idle]
  · rw [exec_slotMapBoundaryWork, State.slotMapWork_of_report waits (State.duplicateScan_of_lowest used seen lowest)]
    rfl
  · refine ⟨_, exec_slotMapBoundaryWork s, ?_⟩
    rw [State.slotMapWork_of_no_report waits (State.duplicateScan_of_none foreign)]
    have works := s.mapTaken.worksOn_foldl_slotStep s.usedSlots
    have unused : ∀ i : Slot, s.slots ≤ i.val →
        (s.usedSlots.foldl State.slotStep s.mapTaken).smap.entries[i] = s.smap.entries[i] := fun i outside =>
      works.others i fun used => by
        have := State.mem_usedSlots.mp used
        omega
    have same : ∀ u : State,
        u = ((List.finRange 32).filter fun i => decide (i.val < s.slots)).foldl State.slotStep
          { s with boundary := { s.boundary with slotMap := false } } →
        s.usedSlots.foldl State.slotStep s.mapTaken = u := fun u after => after.symm
    generalize s.usedSlots.foldl State.slotStep s.mapTaken = u at works unused same
    obtain ⟨smap, -, stc, rtm, lif, cle, listen, boundary, mailbox, rstHeld, pending⟩ := works
    refine ⟨?_, ?_, unused, fun v after => ?_, stc, rtm, lif, cle, listen, mailbox, rstHeld, pending⟩
    · change { u.boundary with claims := true, talk := true, listen := true } = _
      rw [boundary]
      rfl
    · change { u.smap.emptied with stamp := u.stamp } = _
      rw [smap, State.stamp, rtm]
      rfl
    · rw [← same v after]
      exact ⟨rfl, rfl, rfl, rfl, rfl⟩

end Sys2Proof.Machine

/-! A bound channel's slot opens: the burst it hands LIF and the channel after it (R14, R111). -/

namespace Sys2Proof.Machine

/-! ## The next slot (R3, R14) -/

section
variable {s : State} {slot : Slot}

theorem State.nextSlot_of_opened (opened : s.lif.opened = slot.val + 1) (used : slot.val < s.slots) :
    s.nextSlot = some slot := by
  have at' : s.lif.opened - 1 = slot.val := by omega
  have inRange : 1 ≤ s.lif.opened ∧ s.lif.opened ≤ 32 := by omega
  simp [State.nextSlot, inRange, at', used]

theorem State.talkAt_of_lowest {k : TalkId} (atSlot : s.talk[k].bound = some slot)
    (lowest : ∀ j : TalkId, j < k → s.talk[j].bound ≠ some slot) : s.talkAt slot = some k :=
  find?_finRange_eq_some (by simpa using atSlot) fun j below => by simpa using lowest j below

theorem State.sender_of_talkAt {k : TalkId} (sends : s.stc.state = .joined ∨ s.stc.state = .leaving)
    (found : s.talkAt slot = some k) : s.sender slot = some k := by
  rw [State.sender, found]
  rcases sends with joined | leaving
  · rw [joined]
    rfl
  · rw [leaving]
    rfl

theorem exec_slotOpen (s : State) (recessive : Bool) : exec (.slotOpen recessive) s = .next (s.openSlot recessive) := rfl

/-- LIF at the first bit of a slot (R3). -/
def State.slotBegun (s : State) (slot : Slot) : State :=
  (s.setLif { s.lif with opened := s.lif.opened + 1 }).reach (slotTime slot.val)

theorem State.openSlot_sends {k : TalkId} (next : s.nextSlot = some slot)
    (opens : s.mayOpen (slotTime slot.val) = true) (sends : s.sender slot = some k) (recessive : Bool) :
    s.openSlot recessive = (s.slotBegun slot).sendBurst slot k := by
  have still : (s.slotBegun slot).sender slot = some k := sends
  unfold State.openSlot
  rw [next]
  change (if s.mayOpen (slotTime slot.val) then
    match (s.slotBegun slot).sender slot with
      | some k => (s.slotBegun slot).sendBurst slot k
      | none => (s.slotBegun slot).sampleSlot slot recessive
    else s) = _
  rw [if_pos opens, still]

end

/-! ## The burst (R111) -/

section
variable {t : Talk}

theorem Talk.sendsData_iff : t.sendsData = true ↔ t.endWait = false ∧ t.state = .running ∧ t.staging ≠ [] := by
  simp [Talk.sendsData, and_assoc]

section
variable {d : Descriptor} (current : heldOf t.ring.current = some d)
include current

/-- The current carries END: the burst stops with its last word (R111). -/
theorem Talk.burstWords_of_final (final : d.final = true) :
    t.burstWords = t.staging.take (min 8 (d.length - t.ring.position)) := by
  simp only [Talk.burstWords, Talk.endLimit, current, final, if_true, Config.burstWords]

/-- The current does not: the burst stops with the last word of an ahead that carries END (R111). -/
theorem Talk.burstWords_of_final_ahead (more : d.final = false) {a : Descriptor} (ahead : heldOf t.ring.ahead = some a)
    (final : a.final = true) :
    t.burstWords = t.staging.take (min 8 (d.length - t.ring.position + a.length)) := by
  simp [Talk.burstWords, Talk.endLimit, current, more, ahead, final, Config.burstWords]

/-- Nothing cuts the burst short of 8 words (R111). -/
theorem Talk.burstWords_of_open_ahead (more : d.final = false)
    (goesOn : ∀ a, heldOf t.ring.ahead = some a → a.final = false) : t.burstWords = t.staging.take 8 := by
  cases ahead : heldOf t.ring.ahead with
  | none => simp [Talk.burstWords, Talk.endLimit, current, more, ahead, Config.burstWords]
  | some a => simp [Talk.burstWords, Talk.endLimit, current, more, ahead, goesOn a ahead, Config.burstWords]

end

section
variable {self : StationId} {tag : Tag} {sequence : BitVec 4} (tagged : t.tag = some tag)
  (numbered : t.sequence = some sequence)

section
variable (data : t.sendsData = true)
include data

theorem Talk.afterBurst_of_data (numbered : t.sequence = some sequence) : t.afterBurst =
    { t with sequence := some (sequence + 1), onLine := some t.burstWords } := by
  obtain ⟨-, -, staged⟩ := Talk.sendsData_iff.mp data
  have notLate : ¬ (t.state == .running && t.staging.isEmpty && !t.endWait) = true := by simp [staged]
  rw [Talk.afterBurst, if_pos data, if_neg notLate, numbered]
  rfl

include tagged numbered in
theorem Talk.burst_of_data : t.burst self =
    { owner := self, tag, kind := .data, sequence, words := t.burstWords.map StagedWord.word } := by
  rw [Talk.burst, if_pos data, if_pos data, tagged, numbered]
  rfl

end

section
variable (data : t.sendsData = false)
include data

/-- The late count after a FILL: one more if the channel is RUNNING with nothing staged (R111, R114). -/
theorem Talk.afterBurst_of_fill (numbered : t.sequence = some sequence) {late : Nat}
    (counts : late = if t.state = .running ∧ t.staging = [] ∧ t.endWait = false
      then min 65535 (t.lateCount + 1) else t.lateCount) :
    t.afterBurst = { t with sequence := some (sequence + 1), onLine := some [], lateCount := late } := by
  have lateCount : (if t.state == .running && t.staging.isEmpty && !t.endWait then
      countUp Config.countLimit t.lateCount 1 else t.lateCount) = late := by
    rw [counts]
    exact if_congr (by simp [and_assoc]) rfl rfl
  rw [Talk.afterBurst, if_neg (by simp [data]), lateCount, numbered]
  rfl

include tagged numbered in
theorem Talk.burst_of_fill : t.burst self = { owner := self, tag, kind := .fill, sequence, words := [] } := by
  rw [Talk.burst, if_neg (by simp [data]), if_neg (by simp [data]), tagged, numbered]
  rfl

end

end

end

/-- Settles O27: the slot is the channel's, so it sends; DATA with the words that END leaves, or FILL, late or not. -/
theorem ownSlotSendsOneBurst : Obligations.OwnSlotSendsOneBurst := by
  intro s slot k recessive tag sequence sends marked idle opened used now atSlot lowest tagged numbered kind words late
    burst
  have link : s.inLink = true := by
    rcases sends with joined | leaving
    · simp [State.inLink, joined, StationState.inLink]
    · simp [State.inLink, leaving, StationState.inLink]
  have opens : s.mayOpen (slotTime slot.val) = true := by
    simp [State.mayOpen, link, marked, idle, slotTime, Config.slotsOpen, Config.slotBits, now]
  have opening := State.openSlot_sends (State.nextSlot_of_opened opened used) opens
    (State.sender_of_talkAt sends (State.talkAt_of_lowest atSlot lowest)) recessive
  have time : max s.now (slotTime slot.val) = 160 + 320 * slot.val := Nat.max_eq_right now
  have begun : s.slotBegun slot = { s with
      rtm := { s.rtm with elapsed := some (160 + 320 * slot.val) }
      lif := { s.lif with opened := slot.val + 2 } } := by
    have sampled : (s.setLif { s.lif with opened := s.lif.opened + 1 }).now = s.now := rfl
    rw [State.slotBegun, State.reach, sampled, time, opened]
    rfl
  have sent : s.talk[k].afterBurst =
        { s.talk[k] with sequence := some (sequence + 1), onLine := some words, lateCount := late } ∧
      s.talk[k].burst s.selfId =
        { owner := s.selfId, tag, kind, sequence, words := words.map StagedWord.word } := by
    rcases burst with ⟨rfl, running, goesOn, staged, rfl, d, current, cut⟩ | ⟨rfl, rfl, rfl, quiet⟩ |
        ⟨rfl, rfl, rfl, running, goesOn, empty⟩
    · have data : s.talk[k].sendsData = true := Talk.sendsData_iff.mpr ⟨goesOn, running, staged⟩
      have taken : words = s.talk[k].burstWords := by
        rcases cut with ⟨final, taken⟩ | ⟨more, taken⟩
        · rw [taken, Talk.burstWords_of_final current final]
        · rw [taken]
          split
          next a ahead =>
            split
            next final => rw [Talk.burstWords_of_final_ahead current more ahead final]
            next unfinished =>
              refine (Talk.burstWords_of_open_ahead current more fun b held => ?_).symm
              obtain rfl : a = b := Option.some.inj (ahead.symm.trans held)
              exact Bool.eq_false_iff.mpr unfinished
          next absent =>
            exact (Talk.burstWords_of_open_ahead current more fun b held => absurd (absent.symm.trans held) (by simp)).symm
      rw [taken]
      exact ⟨Talk.afterBurst_of_data data numbered, Talk.burst_of_data tagged numbered data⟩
    · have fill : s.talk[k].sendsData = false := by
        rw [Bool.eq_false_iff, ne_eq, Talk.sendsData_iff]
        rintro ⟨goesOn, running, -⟩
        rcases quiet with waits | halted | starved
        · exact absurd waits (by rw [goesOn]; decide)
        · exact absurd halted (by rw [running]; decide)
        · exact absurd starved (by rw [running]; decide)
      refine ⟨Talk.afterBurst_of_fill fill numbered (if_neg ?_).symm, Talk.burst_of_fill tagged numbered fill⟩
      rintro ⟨running, -, goesOn⟩
      rcases quiet with waits | halted | starved
      · exact absurd waits (by rw [goesOn]; decide)
      · exact absurd halted (by rw [running]; decide)
      · exact absurd starved (by rw [running]; decide)
    · have fill : s.talk[k].sendsData = false := by
        rw [Bool.eq_false_iff, ne_eq, Talk.sendsData_iff]
        rintro ⟨-, -, staged⟩
        exact staged empty
      exact ⟨Talk.afterBurst_of_fill fill numbered (if_pos ⟨running, empty, goesOn⟩).symm,
        Talk.burst_of_fill tagged numbered fill⟩
  obtain ⟨after, handed⟩ := sent
  rw [exec_slotOpen, opening, begun, ← after, ← handed]
  rfl

end Sys2Proof.Machine

/-! The requests a talk channel makes, one after another (R93, R98, R108), and the rewind of one that loses its slot
(R104, R116, R117). -/

namespace Sys2Proof.Machine

/-! ## The pump, request by request -/

section
variable {ctx : ChannelContext}

theorem Talk.nextRequest_of_full {t : Talk} (full : 16 ≤ t.requests.length) : t.nextRequest ctx = none :=
  if_pos (by simp [Config.requestLimit, full])

/-- A request adds one entry to the list (R98). -/
theorem Talk.nextRequest_length {t : Talk} {o : Out Talk} (h : t.nextRequest ctx = some o) :
    o.chan.requests.length = t.requests.length + o.requests.length := by
  obtain ⟨later, grown, count, -⟩ := (Talk.nextRequest_pumped h).grows
  rw [grown, List.length_append, count]

/-- Every request is one request. -/
theorem Talk.nextRequest_one {t : Talk} {o : Out Talk} (h : t.nextRequest ctx = some o) : o.requests.length = 1 := by
  unfold Talk.nextRequest Talk.nextAhead at h
  split at h
  · cases h
  · split at h
    · cases h
      rfl
    · split at h
      · dsimp only at h
        split at h
        · cases h
          rfl
        · split at h <;> cases h
          rfl
      · split at h <;> cases h
        rfl

/-- The list limit of R98 bounds the pump: more fuel than it leaves places changes nothing. -/
theorem Talk.pumpFor_succ (n : Nat) (t : Talk) (enough : 16 ≤ t.requests.length + n) :
    t.pumpFor ctx (n + 1) = t.pumpFor ctx n := by
  induction n generalizing t with
  | zero => simp [Talk.pumpFor, Talk.nextRequest_of_full enough]
  | succ n ih =>
    rw [Talk.pumpFor, Talk.pumpFor]
    cases next : t.nextRequest ctx with
    | none => rfl
    | some o =>
      have more := Talk.nextRequest_length next
      rw [Talk.nextRequest_one next] at more
      have same := ih o.chan (by omega)
      simp only [Out.andThen, same]

/-- The next request, and then all the others (R93, R98, R108). -/
theorem Talk.pump_of_next {t : Talk} {o : Out Talk} (next : t.nextRequest ctx = some o) :
    t.pump ctx = { Talk.pump ctx o.chan with requests := o.requests ++ (Talk.pump ctx o.chan).requests } := by
  have pumped := Talk.nextRequest_pumped next
  have rest := Talk.pump_pumped ctx o.chan
  have more := Talk.nextRequest_length next
  rw [Talk.nextRequest_one next] at more
  have fuel : Talk.pumpFor ctx 15 o.chan = Talk.pump ctx o.chan := (Talk.pumpFor_succ 15 o.chan (by omega)).symm
  have first : t.pump ctx = o.andThen (Talk.pump ctx) := by
    rw [Talk.pump, Config.requestLimit, Talk.pumpFor, next]
    simp only [Out.andThen, fuel]
  rw [first]
  simp only [Out.andThen, pumped.records, pumped.release, pumped.done, List.nil_append, Bool.false_or]

end

/-! ## When a request is called for (R93, R98, R108) -/

section
variable {t : Talk}

theorem Talk.walks_iff : t.walks = true ↔ t.state = .armed ∨ t.state = .running ∨ t.state = .starved := by
  simp [Talk.walks, or_assoc]

theorem Talk.mayAsk_iff : t.mayAsk ↔ ¬ (!t.walks || Config.requestLimit ≤ t.requests.length) = true := by
  have places : decide (Config.requestLimit ≤ t.requests.length) = false ↔ t.requests.length < 16 :=
    decide_eq_false_iff_not.trans Nat.not_le
  rw [Talk.mayAsk, ← Talk.walks_iff, ← places]
  simp

theorem ChannelCore.liveFetch_eq_false {c : ChannelCore} :
    c.liveFetch = false ↔ ∀ e ∈ c.requests, e.purpose = .descFetch → e.stale = true := by
  simp [ChannelCore.liveFetch]

theorem ChannelCore.wantsCurrent_iff {c : ChannelCore} : c.wantsCurrent = true ↔ c.callsCurrent := by
  simp only [ChannelCore.wantsCurrent, ChannelCore.callsCurrent, Bool.or_eq_true, Bool.and_eq_true,
    Option.isNone_iff_eq_none, decide_eq_true_eq, beq_iff_eq, Bool.not_eq_true', ChannelCore.liveFetch_eq_false]

theorem heldOf_eq_some {x : Option Taken} {d : Descriptor} : heldOf x = some d ↔ x = some (.held d) := by
  unfold heldOf
  split
  next held => simp
  next other =>
    simp only [reduceCtorEq, false_iff]
    exact other d

theorem ringIndex_ne_succ (i : RingIndex) : i ≠ i + 1 := by
  intro same
  simp at same

/-- The descriptor that a read or write point names (R108, R131). -/
theorem Ring.holds_iff {r : Ring} {d : Descriptor} {index : RingIndex} : r.holds d index ↔
    (if index = r.ci then heldOf r.current else if index = r.ci + 1 then heldOf r.ahead else none) = some d := by
  unfold Ring.holds
  by_cases current : index = r.ci
  · subst current
    simp [heldOf_eq_some]
  · by_cases ahead : index = r.ci + 1
    · subst ahead
      simp [heldOf_eq_some, current]
    · simp [current, ahead]

theorem Talk.readTarget_eq_some {d : Descriptor} {index : RingIndex} {offset : Nat} :
    t.readTarget = some (d, index, offset) ↔
      t.readPoint = some (index, offset) ∧ t.ring.holds d index ∧ offset < d.length := by
  rw [Ring.holds_iff]
  unfold Talk.readTarget
  split
  next point => simp [point]
  next i j point =>
    rw [point]
    dsimp only
    split
    next e named =>
      split
      next inside => grind
      next outside => grind
    next unnamed => grind

theorem Talk.callsRead_iff {d : Descriptor} {index : RingIndex} {offset n : Nat} : t.callsRead d index offset n ↔
    t.readTarget = some (d, index, offset) ∧ n = min Config.burstWords (d.length - offset) ∧ n ≤ t.room := by
  rw [Talk.readTarget_eq_some]
  have fits : offset < d.length → n = min 8 (d.length - offset) →
      (t.staging.length + t.reading + n ≤ 16 ↔ n ≤ t.room) := fun inside size => by
    have room : t.room = 16 - t.staging.length - t.reading := rfl
    omega
  constructor
  · rintro ⟨point, held, inside, size, room⟩
    exact ⟨⟨point, held, inside⟩, size, (fits inside size).mp room⟩
  · rintro ⟨⟨point, held, inside⟩, size, room⟩
    exact ⟨point, held, inside, size, (fits inside size).mpr room⟩

theorem Talk.unread_le {d : Descriptor} (current : t.ring.current = some (.held d)) :
    t.unread ≤ 16 ↔ ∀ offset, t.readPoint = some (t.ring.ci, offset) → d.length ≤ offset + 16 := by
  have held : heldOf t.ring.current = some d := heldOf_eq_some.mpr current
  unfold Talk.unread
  rw [held]
  cases point : t.readPoint with
  | none => simp
  | some p =>
    obtain ⟨index, offset⟩ := p
    by_cases same : index = t.ring.ci
    · simp only [same, if_true, Option.some.injEq, Prod.mk.injEq, true_and, forall_eq']
      omega
    · simp [same]

theorem ChannelCore.wantsAhead_iff {c : ChannelCore} : c.wantsAhead = true ↔
    ∃ d, c.ring.current = some (.held d) ∧ c.ring.ahead = none ∧ 1 < c.ring.count := by
  unfold ChannelCore.wantsAhead Ring.taken
  constructor
  · intro wants
    simp only [Bool.and_eq_true, Option.isSome_iff_exists, Option.isNone_iff_eq_none, decide_eq_true_eq] at wants
    obtain ⟨⟨⟨d, held⟩, noAhead⟩, second⟩ := wants
    rw [heldOf_eq_some] at held
    rw [held, noAhead] at second
    exact ⟨d, held, noAhead, second⟩
  · rintro ⟨d, held, noAhead, second⟩
    simp [held, noAhead, heldOf, second]

theorem Talk.callsAhead_iff :
    t.callsAhead ↔ (t.wantsAhead && !t.readsStale && decide (t.unread ≤ Config.bufferWords)) = true := by
  simp only [Bool.and_eq_true, ChannelCore.wantsAhead_iff, Bool.not_eq_true', decide_eq_true_eq, Talk.readsStale,
    List.contains_eq_mem, decide_eq_false_iff_not]
  constructor
  · rintro ⟨d, current, noAhead, second, unfailed, few⟩
    exact ⟨⟨⟨d, current, noAhead, second⟩, unfailed⟩, (Talk.unread_le current).mpr few⟩
  · rintro ⟨⟨⟨d, current, noAhead, second⟩, unfailed⟩, few⟩
    exact ⟨d, current, noAhead, second, unfailed, (Talk.unread_le current).mp few⟩

/-! ## The next request, by what is called for -/

variable {ctx : ChannelContext}

theorem Talk.nextRequest_of_not_mayAsk (h : ¬ t.mayAsk) : t.nextRequest ctx = none :=
  if_pos (not_not.mp (mt Talk.mayAsk_iff.mpr h))

theorem Talk.nextRequest_of_callsCurrent (may : t.mayAsk) (calls : t.callsCurrent) :
    t.nextRequest ctx = some (t.withCore (t.toChannelCore.fetchCurrent ctx)) := by
  unfold Talk.nextRequest
  rw [if_neg (Talk.mayAsk_iff.mp may), if_pos (ChannelCore.wantsCurrent_iff.mpr calls)]

variable (may : t.mayAsk) (other : ¬ t.callsCurrent)
include may other

theorem Talk.nextRequest_of_callsRead {d : Descriptor} {index : RingIndex} {offset n : Nat}
    (calls : t.callsRead d index offset n) : t.nextRequest ctx = some (t.read ctx d index offset n) := by
  obtain ⟨target, rfl, fits⟩ := Talk.callsRead_iff.mp calls
  unfold Talk.nextRequest
  rw [if_neg (Talk.mayAsk_iff.mp may), if_neg (mt ChannelCore.wantsCurrent_iff.mp other), target]
  exact if_pos fits

theorem Talk.nextRequest_of_no_read (none : ∀ d index offset n, ¬ t.callsRead d index offset n) :
    t.nextRequest ctx = t.nextAhead ctx := by
  unfold Talk.nextRequest
  rw [if_neg (Talk.mayAsk_iff.mp may), if_neg (mt ChannelCore.wantsCurrent_iff.mp other)]
  split
  next d index offset target =>
    exact if_neg fun fits => none d index offset _ (Talk.callsRead_iff.mpr ⟨target, rfl, fits⟩)
  next => rfl

end

theorem Talk.nextAhead_of_callsAhead {t : Talk} {ctx : ChannelContext} (calls : t.callsAhead) :
    t.nextAhead ctx = some (t.withCore (t.toChannelCore.fetchAhead ctx)) :=
  if_pos (Talk.callsAhead_iff.mp calls)

theorem Talk.nextAhead_of_not {t : Talk} {ctx : ChannelContext} (calls : ¬ t.callsAhead) : t.nextAhead ctx = none :=
  if_neg (mt Talk.callsAhead_iff.mpr calls)

/-! ## The ahead that the pump fetches (R93) -/

/-- The ahead stays, or it is fetched by a request among the new ones. -/
def Talk.AheadFetched (t : Talk) (o : Out Talk) : Prop :=
  ∃ later, o.chan.requests = t.requests ++ later ∧
    (o.chan.ring.ahead = t.ring.ahead ∨ (o.chan.ring.ahead = some .fetching ∧
      ∃ e ∈ later, e.purpose = .descFetch ∧ e.index = t.ring.ci + 1))

theorem Talk.AheadFetched.refl (t : Talk) : t.AheadFetched (Out.only t) := ⟨[], by simp, .inl rfl⟩

theorem Talk.AheadFetched.andThen {t : Talk} {o : Out Talk} {f : Talk → Out Talk} (h : t.AheadFetched o)
    (ci : o.chan.ring.ci = t.ring.ci) (g : o.chan.AheadFetched (f o.chan)) : t.AheadFetched (o.andThen f) := by
  obtain ⟨first, grown, fetched⟩ := h
  obtain ⟨second, grownMore, fetchedMore⟩ := g
  refine ⟨first ++ second, by rw [Out.andThen_chan, grownMore, grown, List.append_assoc], ?_⟩
  rw [Out.andThen_chan]
  rcases fetchedMore with same | ⟨fetching, e, mem, purpose, index⟩
  · rw [same]
    exact fetched.imp_right fun ⟨fetching, e, mem, is⟩ => ⟨fetching, e, List.mem_append_left _ mem, is⟩
  · exact .inr ⟨fetching, e, List.mem_append_right _ mem, purpose, ci ▸ index⟩

theorem Talk.nextRequest_aheadFetched {ctx : ChannelContext} {t : Talk} {o : Out Talk}
    (next : t.nextRequest ctx = some o) : t.AheadFetched o := by
  by_cases may : t.mayAsk
  case neg =>
    rw [Talk.nextRequest_of_not_mayAsk may] at next
    cases next
  by_cases current : t.callsCurrent
  · rw [Talk.nextRequest_of_callsCurrent may current] at next
    cases next
    exact ⟨[_], rfl, .inl rfl⟩
  · by_cases read : ∃ d index offset n, t.callsRead d index offset n
    · obtain ⟨d, index, offset, n, calls⟩ := read
      rw [Talk.nextRequest_of_callsRead may current calls] at next
      cases next
      exact ⟨[_], rfl, .inl rfl⟩
    · rw [Talk.nextRequest_of_no_read may current fun d index offset n calls => read ⟨d, index, offset, n, calls⟩] at next
      by_cases ahead : t.callsAhead
      · rw [Talk.nextAhead_of_callsAhead ahead] at next
        cases next
        exact ⟨[_], rfl, .inr ⟨rfl, _, List.mem_singleton_self _, rfl, rfl⟩⟩
      · rw [Talk.nextAhead_of_not ahead] at next
        cases next

theorem Talk.pumpFor_aheadFetched (ctx : ChannelContext) (n : Nat) (t : Talk) : t.AheadFetched (t.pumpFor ctx n) := by
  induction n generalizing t with
  | zero => exact .refl t
  | succ n ih =>
    rw [Talk.pumpFor]
    split
    next o next =>
      exact (Talk.nextRequest_aheadFetched next).andThen (by rw [(Talk.nextRequest_pumped next).chan]) (ih _)
    next => exact .refl t

theorem Talk.pump_aheadFetched (ctx : ChannelContext) (t : Talk) : t.AheadFetched (t.pump ctx) :=
  Talk.pumpFor_aheadFetched ctx _ t

end Sys2Proof.Machine

/-! A channel that loses its slot (R52, R55, R104, R116, R117). -/

namespace Sys2Proof.Machine

/-! ## The channel after the rewind (R116) -/

section
variable (t : Talk)

theorem Talk.rewound_readPoint :
    t.rewound.readPoint = if t.ring.current = none then none else some (t.ring.ci, t.ring.position) := by
  unfold Talk.rewound
  cases t.ring.current <;> rfl

theorem Talk.rewound_requests : t.rewound.requests =
    t.requests.map fun e => { e with stale := e.stale || e.purpose != .writeback } := staleEntries_eq t.requests

theorem Talk.rewound_eq : t.rewound = { t with
    staging := [], onLine := none, bound := none, sequence := none, endWait := false, heldHalts := []
    state := .armed, ring := { t.ring with ahead := none }
    readPoint := if t.ring.current = none then none else some (t.ring.ci, t.ring.position)
    requests := t.requests.map fun e => { e with stale := e.stale || e.purpose != .writeback } } := by
  rw [← Talk.rewound_readPoint, ← Talk.rewound_requests]
  rfl

/-- Every old fetch and data read is stale (R116). -/
theorem Talk.rewound_stale {e : RequestEntry} (mem : e ∈ t.rewound.requests) (other : e.purpose ≠ .writeback) :
    e.stale = true := staleEntries_stale mem other

theorem Talk.rewound_length : t.rewound.requests.length = t.requests.length := List.length_map _

variable {t}

theorem Talk.rewound_mayAsk (places : t.requests.length < 16) : t.rewound.mayAsk :=
  ⟨.inl rfl, t.rewound_length.trans_lt places⟩

/-- No read is to come, so that every read of up to 16 words fits (R108, R116). -/
theorem Talk.rewound_reading :
    ((t.rewound.requests.filter fun e => e.purpose == .dataRead && !e.stale).map RequestEntry.words).sum = 0 := by
  have none : (t.rewound.requests.filter fun e => e.purpose == .dataRead && !e.stale) = [] := by
    refine List.filter_eq_nil_iff.mpr fun e mem => ?_
    by_cases read : e.purpose = .dataRead
    · simp [read, t.rewound_stale mem (by simp [read])]
    · simp [read]
  rw [none]
  rfl

theorem Talk.rewound_callsCurrent (fetching : t.ring.current = some .fetching) : t.rewound.callsCurrent :=
  .inr ⟨fetching, fun _ mem purpose => t.rewound_stale mem (by simp [purpose])⟩

/-- Staging starts again with the current's word at position (R116). -/
theorem Talk.rewound_callsRead {d : Descriptor} (current : t.ring.current = some (.held d))
    (left : t.ring.position < d.length) :
    t.rewound.callsRead d t.ring.ci t.ring.position (min 8 (d.length - t.ring.position)) := by
  refine ⟨?_, .inl ⟨rfl, current⟩, left, rfl, ?_⟩
  · rw [Talk.rewound_readPoint, if_neg (by simp [current])]
  · rw [Talk.rewound_reading]
    change 0 + 0 + min 8 (d.length - t.ring.position) ≤ 16
    omega

theorem Talk.rewound_not_callsCurrent {d : Descriptor} (current : t.ring.current = some (.held d)) :
    ¬ t.rewound.callsCurrent := by
  have same : t.rewound.ring.current = some (.held d) := current
  rintro (⟨none, -⟩ | ⟨fetching, -⟩)
  · simp [same] at none
  · simp [same] at fetching

variable (ctx : ChannelContext)

/-- What the rewound channel asks for, and what joins its list. -/
theorem Talk.rewound_grows : ∃ later, (t.rewound.pump ctx).chan.requests = t.rewound.requests ++ later ∧
    later.length = (t.rewound.pump ctx).requests.length ∧
    (∀ e ∈ later, e.stale = false ∧ (e.purpose = .descFetch ∨ e.purpose = .dataRead)) ∧
    ((t.rewound.pump ctx).chan.ring.ahead = none ∨ ((t.rewound.pump ctx).chan.ring.ahead = some .fetching ∧
      ∃ e ∈ later, e.purpose = .descFetch ∧ e.index = t.ring.ci + 1)) ∧
    (t.ring.current = some .fetching → t.requests.length < 16 → ∃ e es, later = e :: es ∧
      e.purpose = .descFetch ∧ e.index = t.ring.ci) := by
  obtain ⟨later, grown, count, kinds⟩ := (t.rewound.pump_pumped ctx).grows
  obtain ⟨same, grownAhead, ahead⟩ := t.rewound.pump_aheadFetched ctx
  obtain rfl : later = same := List.append_cancel_left (grown.symm.trans grownAhead)
  refine ⟨later, grown, count, fun e mem => ?_, ahead, fun fetching places => ?_⟩
  · rcases kinds e mem with ⟨fetch, live⟩ | ⟨read, live⟩
    · exact ⟨live, .inl fetch⟩
    · exact ⟨live, .inr read⟩
  · have next := Talk.nextRequest_of_callsCurrent (ctx := ctx) (Talk.rewound_mayAsk places)
      (Talk.rewound_callsCurrent fetching)
    rw [Talk.pump_of_next next] at grown
    obtain ⟨rest, more, -⟩ := (Talk.pump_pumped ctx (t.rewound.withCore (t.rewound.toChannelCore.fetchCurrent ctx)).chan).grows
    have whole := grown.symm.trans more
    exact ⟨_, rest, List.append_cancel_left (whole.trans (List.append_assoc _ _ _)), rfl, rfl⟩

end

/-! ## The loss of a slot (R117) -/

section
variable {ctx : ChannelContext} {t : Talk}

theorem Talk.loseSlot_of_sending (sending : t.state = .running ∨ t.state = .starved) :
    t.loseSlot ctx = t.rewound.pump ctx :=
  if_pos (by simpa using sending)

theorem Talk.loseSlot_of_halted (halted : t.state = .halted) : t.loseSlot ctx = Out.only
    { t with bound := none, sequence := none, endWait := false } := by
  have still : ¬ (t.state == .running || t.state == .starved) = true := by simp [halted]
  rw [Talk.loseSlot, if_neg still, Talk.unbind, if_neg still]

theorem Talk.loseSlot_records : (t.loseSlot ctx).records = [] := by
  unfold Talk.loseSlot
  split
  · exact Talk.pump_records _ _
  · rfl

end

section
variable {s : State} {slot : Slot} {k : TalkId}

theorem State.slotLost_of_talkAt (found : s.talkAt slot = some k) (cause : LossCause) (station : Option StationId) :
    s.slotLost slot cause station = (s.post (event .slotLost cause.code (channel := some (talkChannel k))
      (slot := some slot) (station := station) (tag := s.talk[k].tag))).applyTalk k Talk.loseSlot := by
  unfold State.slotLost
  rw [found]

end

/-- Settles O37: the channel at the slot alone loses it; the pump makes the request next called for, and goes on from
there; the rewound channel is one whose old fetches and reads are stale. -/
theorem losingTheSlotRewinds : Obligations.LosingTheSlotRewinds := by
  refine ⟨fun s t slot k cause station o atSlot alone lost after => ?_, fun ctx t => ⟨Talk.pump_of_none,
    fun o => Talk.pump_of_next, Talk.nextRequest_of_not_mayAsk, Talk.nextRequest_of_callsCurrent,
    fun may other => ⟨fun d index offset n calls => ?_, fun none => ⟨fun calls => ?_, fun calls => ?_⟩⟩⟩, fun ctx t => ⟨fun sending => ?_, Talk.loseSlot_of_halted⟩⟩
  · have loses := State.slotLost_of_talkAt (State.talkAt_of_only atSlot alone) cause station
    subst after
    rw [loses]
    generalize posted : s.post (event .slotLost cause.code (channel := some (talkChannel k)) (slot := some slot)
      (station := station) (tag := s.talk[k].tag)) = p
    have talk : p.talk = s.talk := by rw [← posted, State.post_talk]
    have stamp : p.stamp = s.stamp := by rw [← posted, State.stamp, State.post_rtm]; rfl
    have same : Talk.loseSlot (p.talkContext k) p.talk[k] = o := by
      rw [lost, talk, State.talkContext, stamp]
    refine ⟨?_, ?_, ?_, ?_, ?_, ?_, ?_, ?_, ?_⟩
    · rw [State.applyTalk_talk, same, talk]
    · rw [State.applyTalk_evq, Talk.loseSlot_records, State.postAll_nil, ← posted]
      cases cause <;> rfl
    · rw [State.applyTalk_mpt, same, ← posted, State.post_mpt]
    · rw [State.applyTalk_smap, ← posted, State.post_smap]
    · rw [State.applyTalk_cle (Talk.loseSlot_release _ _), ← posted, State.post_cle]
    · rw [State.applyTalk_listen, ← posted, State.post_listen]
    · rw [State.applyTalk_stc, ← posted, State.post_stc]
    · rw [State.applyTalk_boundary, ← posted, State.post_boundary]
    · rw [State.applyTalk_mailbox, Talk.loseSlot_done, ← posted, State.post_hpt_mailbox]
      rfl
  · rw [Talk.nextRequest_of_callsRead may other calls, Talk.read, apply_ite some]
    rfl
  · rw [Talk.nextRequest_of_no_read may other none, Talk.nextAhead_of_callsAhead calls]
    rfl
  · rw [Talk.nextRequest_of_no_read may other none, Talk.nextAhead_of_not calls]
  · refine ⟨_, rfl, ?_⟩
    rw [Talk.loseSlot_of_sending sending]
    have pumped := t.rewound.pump_pumped ctx
    obtain ⟨later, grown, count, kinds, ahead, first⟩ := Talk.rewound_grows (t := t) ctx
    refine ⟨?_, ?_, ?_, ?_, ?_, ?_, ?_, ?_, ?_, ?_, ?_, pumped.current, pumped.records, pumped.release, pumped.done, ?_,
      fun d current left places => ?_, later, ?_, count, kinds, ahead, first⟩
    case refine_12 => rw [Talk.rewound_eq]
    case refine_13 =>
      rw [Talk.pump_of_next (Talk.nextRequest_of_callsRead (Talk.rewound_mayAsk places)
        (Talk.rewound_not_callsCurrent current) (Talk.rewound_callsRead current left))]
      rfl
    case refine_14 => rw [grown, Talk.rewound_requests]
    all_goals
      rw [pumped.chan]
      rfl

end Sys2Proof.Machine

/-! What a response of the host bus does in the part (R144): the frame of one channel's event, the records it makes, the
halts of a ring (R102), and the channel's own judgement of it (R109, R132). -/

namespace Sys2Proof.Machine

/-! ## The records of one event (R165 to R167) -/

section
variable {s t : State} {rs : List EventRecord}

/-- At most three records have a place when three are free. -/
theorem State.reports_of_mem {r : EventRecord} (evq : t.evq = (s.postAll rs).evq) (made : r ∈ rs) (few : rs.length ≤ 3) :
    s.reports t r := by
  intro recorded room
  rw [evq, State.postAll_queue_of_places rs (by omega)]
  exact List.mem_append_right _ (List.mem_map.mpr ⟨r, List.mem_filter.mpr ⟨made, recorded⟩, rfl⟩)

/-- The first record made stands behind those there were. -/
theorem State.postAll_queue_cons {r : EventRecord} (recorded : s.records r.kind = true) (place : s.evq.queue.length < 32) :
    ∃ more, (s.postAll (r :: rs)).evq.queue = s.evq.queue ++ { r with stamp := s.stamp } :: more := by
  obtain ⟨more, queue⟩ := ((s.post r).postAll_recorded rs).queue
  refine ⟨more, ?_⟩
  rw [State.postAll_cons, queue, State.post_of_place recorded place]
  exact List.append_assoc _ _ _

end

/-! ## The part after a response (R144) -/

/-- An outcome of talk channel k, and one place freed at the Memory Port. -/
structure State.TalkAnswered (s t : State) (k : TalkId) (rest : List MemRequest) (o : Out Talk) : Prop where
  chan : t.talk[k] = o.chan
  others : ∀ j : TalkId, j ≠ k → t.talk[j] = s.talk[j]
  outstanding : t.mpt.outstanding = rest
  waiting : t.mpt.waiting = s.mpt.waiting.set (talkChannel k) (s.mpt.waiting[talkChannel k] ++ o.requests)
  evq : t.evq = (s.postAll o.records).evq
  listen : t.listen = s.listen
  stc : t.stc = s.stc
  smap : t.smap = s.smap
  mailbox : o.done = false → t.hpt.mailbox = s.hpt.mailbox
  cle : o.release = false → t.cle = s.cle

/-- An outcome of listen channel k, and one place freed at the Memory Port. -/
structure State.ListenAnswered (s t : State) (k : ListenId) (rest : List MemRequest) (o : Out Listen) : Prop where
  chan : t.listen[k] = o.chan
  others : ∀ j : ListenId, j ≠ k → t.listen[j] = s.listen[j]
  outstanding : t.mpt.outstanding = rest
  waiting : t.mpt.waiting = s.mpt.waiting.set (listenChannel k) (s.mpt.waiting[listenChannel k] ++ o.requests)
  evq : t.evq = (s.postAll o.records).evq
  talk : t.talk = s.talk
  stc : t.stc = s.stc
  smap : t.smap = s.smap
  cle : t.cle = s.cle
  mailbox : o.done = false → t.hpt.mailbox = s.hpt.mailbox
  completes : o.done = true → ∀ code, s.hpt.mailbox = .busy code → t.hpt.mailbox = .done .ok code

section
variable {s : State} {r : MemRequest} {rest : List MemRequest}

/-- One place is free at the Memory Port (R144). -/
def State.freed (s : State) (rest : List MemRequest) : State := s.setMpt { s.mpt with outstanding := rest }

theorem exec_memoryResponse_talk {k : TalkId} (outstanding : s.mpt.outstanding = r :: rest) (live : s.mpt.absorb = 0)
    (requester : r.requester = talkChannel k) (error : Bool) (data : Vector Word 8) :
    exec (.memoryResponse error data) s = .next ((s.freed rest).applyTalk k fun ctx =>
      Talk.response ctx (responseWords error data)) := by
  rw [exec_memoryResponse, State.takeResponse_of_live outstanding live, State.handResponse_talk requester]
  rfl

theorem exec_memoryResponse_listen {k : ListenId} (outstanding : s.mpt.outstanding = r :: rest) (live : s.mpt.absorb = 0)
    (requester : r.requester = listenChannel k) (error : Bool) (data : Vector Word 8) :
    exec (.memoryResponse error data) s = .next ((s.freed rest).applyListen k fun ctx =>
      Listen.response ctx (responseWords error data)) := by
  rw [exec_memoryResponse, State.takeResponse_of_live outstanding live, State.handResponse_listen requester]
  rfl

theorem State.talkAnswered_applyTalk {k : TalkId} {f : ChannelContext → Talk → Out Talk} {o : Out Talk}
    (out : f (s.talkContext k) s.talk[k] = o) : s.TalkAnswered ((s.freed rest).applyTalk k f) k rest o := by
  have out' : f ((s.freed rest).talkContext k) (s.freed rest).talk[k] = o := out
  refine ⟨?_, fun j other => State.applyTalk_other f other.symm, ?_, ?_, ?_, ?_, ?_, ?_, fun done => ?_, fun release => ?_⟩
  · rw [State.applyTalk_get, out']
  · rw [State.applyTalk_mpt]
    rfl
  · rw [State.applyTalk_mpt, out']
    rfl
  · rw [State.applyTalk_evq, out']
    exact State.postAll_evq_congr (by rfl) (by rfl) (by rfl) _
  · exact State.applyTalk_listen _ _ _
  · exact State.applyTalk_stc _ _ _
  · exact State.applyTalk_smap _ _ _
  · rw [State.applyTalk_mailbox, out', if_neg (by simp [done])]
    rfl
  · rw [State.applyTalk_cle (by rw [out', release])]
    rfl

theorem State.listenAnswered_applyListen {k : ListenId} {f : ChannelContext → Listen → Out Listen} {o : Out Listen}
    (out : f (s.listenContext k) s.listen[k] = o) : s.ListenAnswered ((s.freed rest).applyListen k f) k rest o := by
  have out' : f ((s.freed rest).listenContext k) (s.freed rest).listen[k] = o := out
  refine ⟨?_, fun j other => State.applyListen_other f other.symm, ?_, ?_, ?_, ?_, ?_, ?_, ?_, fun done => ?_,
    fun done code busy => ?_⟩
  · rw [State.applyListen_get, out']
  · rw [State.applyListen_mpt]
    rfl
  · rw [State.applyListen_mpt, out']
    rfl
  · rw [State.applyListen_evq, out']
    exact State.postAll_evq_congr (by rfl) (by rfl) (by rfl) _
  · exact State.applyListen_talk _ _ _
  · exact State.applyListen_stc _ _ _
  · exact State.applyListen_smap _ _ _
  · exact State.applyListen_cle _ _ _
  · rw [State.applyListen_mailbox, out', if_neg (by simp [done])]
    rfl
  · rw [State.applyListen_mailbox, out', if_pos done, State.busy_commandComplete (s := s.freed rest) busy]
    rfl

section
variable {t : State} {k : TalkId} {o : Out Talk} (answered : s.TalkAnswered t k rest o)
include answered

theorem State.TalkAnswered.waiting_own :
    t.mpt.waiting[talkChannel k] = s.mpt.waiting[talkChannel k] ++ o.requests := by
  rw [answered.waiting]
  simp

theorem State.TalkAnswered.waiting_same (none : o.requests = []) : t.mpt.waiting = s.mpt.waiting := by
  rw [answered.waiting, none]
  simp

theorem State.TalkAnswered.asks {first : List MemRequest} {v : Talk}
    (chan : o.chan = (v.pump (s.talkContext k)).chan) (requests : o.requests = first ++ (v.pump (s.talkContext k)).requests) :
    s.talkAsks t k first v :=
  ⟨_, rfl, answered.chan.trans chan, by rw [answered.waiting_own, requests, List.append_assoc]; rfl⟩

end

section
variable {t : State} {k : ListenId} {o : Out Listen} (answered : s.ListenAnswered t k rest o)
include answered

theorem State.ListenAnswered.waiting_own :
    t.mpt.waiting[listenChannel k] = s.mpt.waiting[listenChannel k] ++ o.requests := by
  rw [answered.waiting]
  simp

theorem State.ListenAnswered.waiting_same (none : o.requests = []) : t.mpt.waiting = s.mpt.waiting := by
  rw [answered.waiting, none]
  simp

theorem State.ListenAnswered.asks {first : List MemRequest} {v : Listen}
    (chan : o.chan = (v.pump (s.listenContext k)).chan)
    (requests : o.requests = first ++ (v.pump (s.listenContext k)).requests) : s.listenAsks t k first v :=
  ⟨_, rfl, answered.chan.trans chan, by rw [answered.waiting_own, requests, List.append_assoc]; rfl⟩

end

/-- An event that changes the channel and makes one record. -/
theorem State.applyTalk_of_recorded {k : TalkId} {f : ChannelContext → Talk → Out Talk} {t : Talk} {r : EventRecord}
    (out : f (s.talkContext k) s.talk[k] = (Out.only t).record r) : s.applyTalk k f = (s.setTalk k t).post r := by
  unfold State.applyTalk State.carry
  dsimp only
  rw [out]
  simp only [Out.record, Out.only, List.nil_append, State.enqueue_nil, State.postAll_cons, State.postAll_nil,
    Bool.false_eq_true, if_false]

theorem State.applyListen_of_recorded {k : ListenId} {f : ChannelContext → Listen → Out Listen} {l : Listen}
    {r : EventRecord} (out : f (s.listenContext k) s.listen[k] = (Out.only l).record r) :
    s.applyListen k f = (s.setListen k l).post r := by
  unfold State.applyListen State.carry
  dsimp only
  rw [out]
  simp only [Out.record, Out.only, List.nil_append, State.enqueue_nil, State.postAll_cons, State.postAll_nil,
    Bool.false_eq_true, if_false]

end

/-! ## The ring of a channel that enters HALTED (R102) -/

section
variable (ctx : ChannelContext) {c : ChannelCore} (sequence : Option (BitVec 4))

theorem completionWords_none (result : WritebackResult) (n : Nat) :
    completionWords ctx none result n = [completionWord2 result n, completionWord3 ctx.stamp none] := by
  simp [completionWords]

theorem completionWords_of_pos (result : WritebackResult) {n : Nat} (pos : 0 < n) :
    completionWords ctx sequence result n = [completionWord2 result n, completionWord3 ctx.stamp sequence] := by
  rw [completionWords, if_neg pos.ne']

/-- A bad descriptor is written back BAD with no words, and CI stays (R95, R102). -/
theorem ChannelCore.halt_bad : c.halt ctx .badDescriptor sequence =
    { Out.only { ring := c.ring.emptied
                 requests := staleEntries c.requests ++ [writebackEntry c.ring.ci .bad (eventOf c.ring.current)] } with
      requests := [c.ring.writebackRequest ctx c.ring.ci (completionWords ctx none .bad 0)] } := rfl

/-- A failed fetch and an END buffer drop what is taken with no writeback (R102). -/
theorem ChannelCore.halt_fetchFailed : c.halt ctx .fetchFailed sequence =
    Out.only { ring := c.ring.emptied, requests := staleEntries c.requests } := rfl

theorem ChannelCore.halt_endBuffer : c.halt ctx .endBuffer sequence =
    Out.only { ring := c.ring.emptied, requests := staleEntries c.requests } := rfl

/-- The reasons for which a HELD current is written back MEMORY (R100 to R102). -/
def HaltReason.writesBack : HaltReason → Prop
  | .dataFailed | .writebackFailed _ => True
  | .badDescriptor | .fetchFailed | .endBuffer => False

/-- A current HELD, with or without a failed read, is written back MEMORY with the words done, and passed (R102). -/
theorem ChannelCore.halt_of_held {reason : HaltReason} (memory : reason.writesBack) {d : Descriptor}
    (held : c.ring.current = some (.held d) ∨ c.ring.current = some (.readError d)) : c.halt ctx reason sequence =
    { Out.only { ring := c.ring.passed
                 requests := staleEntries c.requests ++ [writebackEntry c.ring.ci .memory (eventOf c.ring.current)] } with
      requests := [c.ring.writebackRequest ctx c.ring.ci
        (completionWords ctx sequence .memory c.ring.position)] } := by
  unfold ChannelCore.halt
  cases reason with
  | dataFailed | writebackFailed =>
    dsimp only
    rcases held with held | held <;> rw [held] <;> rfl
  | badDescriptor | fetchFailed | endBuffer => exact memory.elim

/-- A current that no fetch has brought is dropped (R102). -/
theorem ChannelCore.halt_of_unheld {reason : HaltReason} (memory : reason.writesBack)
    (unheld : c.ring.current = none ∨ c.ring.current = some .fetching) : c.halt ctx reason sequence =
    Out.only { ring := c.ring.emptied, requests := staleEntries c.requests } := by
  unfold ChannelCore.halt
  cases reason with
  | dataFailed | writebackFailed =>
    dsimp only
    rcases unheld with unheld | unheld <;> rw [unheld] <;> rfl
  | badDescriptor | fetchFailed | endBuffer => exact memory.elim

/-- A halt leaves nothing taken, and every fetch and data request stale (R102). -/
theorem ChannelCore.closes_halt (c : ChannelCore) (reason : HaltReason) : c.Closes (c.halt ctx reason sequence) := by
  have written : ∀ (r : Ring) (index : RingIndex) (result : WritebackResult) (event : Bool) (data : List Word),
      r.current = none → r.ahead = none → r.position = 0 → r.base = c.ring.base → r.fi = c.ring.fi →
      c.Closes { Out.only { ring := r, requests := staleEntries c.requests ++ [writebackEntry index result event] } with
        requests := [c.ring.writebackRequest ctx index data] } :=
    fun r index result event data current ahead position base fi =>
      ⟨current, ahead, position, base, fi, fun x mem other => by
        rcases List.mem_append.mp mem with old | new
        · exact staleEntries_stale old other
        · rw [List.mem_singleton.mp new] at other
          exact absurd rfl other, rfl, rfl⟩
  have dropped : c.Closes (Out.only { ring := c.ring.emptied, requests := staleEntries c.requests }) :=
    ⟨rfl, rfl, rfl, rfl, rfl, fun x => staleEntries_stale, rfl, rfl⟩
  cases reason with
  | badDescriptor => exact written _ _ _ _ _ rfl rfl rfl rfl rfl
  | fetchFailed | endBuffer => exact dropped
  | dataFailed | writebackFailed =>
    unfold ChannelCore.halt
    dsimp only
    split
    · exact written c.ring.passed _ _ _ _ rfl rfl rfl rfl rfl
    · exact written c.ring.passed _ _ _ _ rfl rfl rfl rfl rfl
    all_goals exact dropped

theorem ChannelCore.halt_done (c : ChannelCore) (reason : HaltReason) : (c.halt ctx reason sequence).done = false := by
  unfold ChannelCore.halt
  cases reason with
  | dataFailed | writebackFailed => dsimp only; split <;> rfl
  | badDescriptor | fetchFailed | endBuffer => rfl

theorem haltRecord_eq (channel : ChannelId) (detail : Nat) :
    haltRecord channel detail = event .channelHalted detail (channel := some channel) := rfl

end

/-! ## Fetched descriptors (R94, R174) -/

theorem Descriptor.valid_iff {d : Descriptor} : d.valid = true ↔
    d.length ≠ 0 ∧ d.address.toNat % 4 = 0 ∧ d.address.toNat / 65536 = (d.address.toNat + 4 * d.length - 1) / 65536 := by
  have aligned : d.address.extractLsb' 0 2 = 0#2 ↔ d.address.toNat % 4 = 0 := by
    rw [← BitVec.toNat_inj]
    simp
  simp [Descriptor.valid, aligned, and_assoc]

theorem Descriptor.valid_eq_false {d : Descriptor} (bad : d.length = 0 ∨ d.address.toNat % 4 ≠ 0 ∨
    d.address.toNat / 65536 ≠ (d.address.toNat + 4 * d.length - 1) / 65536) : d.valid = false := by
  rw [Bool.eq_false_iff, ne_eq, Descriptor.valid_iff]
  rintro ⟨nonempty, aligned, inside⟩
  rcases bad with empty | unaligned | outside
  · exact nonempty empty
  · exact unaligned aligned
  · exact outside inside

/-- The descriptor a fetch brings (R174; log entry 19 for the words used). -/
theorem descriptorOf_response {data : Vector Word 8} {d : Descriptor}
    (read : d = { address := data[0], length := data[1].toNat % 16384, event := data[1].getLsbD 30,
                  final := data[1].getLsbD 31 }) :
    descriptorOf (data.toList.getD 0 0) (data.toList.getD 1 0) = d := by
  have first : data.toList.getD 0 0 = data[0] := by simp
  have second : data.toList.getD 1 0 = data[1] := by simp
  rw [first, second, read]
  simp [descriptorOf]

/-! ## A response at a talk channel (R109) -/

/-- What follows the judgement of a response: the state in line, and the requests then called for (R106, R109). -/
def Talk.settle (ctx : ChannelContext) (o : Out Talk) : Out Talk := (o.andThen (Talk.rejudge ctx)).andThen (Talk.pump ctx)

section
variable {ctx : ChannelContext} {t : Talk} {e : RequestEntry} {es : List RequestEntry}

theorem Talk.response_of_live (oldest : t.requests = e :: es) (live : e.stale = false) (words : Option (List Word)) :
    t.response ctx words = Talk.settle ctx (Talk.judgeResponse ctx e words { t with requests := es }) := by
  unfold Talk.response
  rw [oldest]
  dsimp only
  rw [live]
  rfl

theorem Talk.response_of_stale (oldest : t.requests = e :: es) (stale : e.stale = true) (words : Option (List Word)) :
    t.response ctx words = Talk.settle ctx (Out.only { t with requests := es }) := by
  unfold Talk.response
  rw [oldest]
  dsimp only
  rw [stale]
  rfl

variable (ctx) (o : Out Talk)

theorem Talk.settle_chan : (Talk.settle ctx o).chan = (Talk.pump ctx o.chan.due).chan := by
  unfold Talk.settle
  rw [Out.andThen_chan, Out.andThen_chan, Talk.rejudge_due]

theorem Talk.settle_requests : (Talk.settle ctx o).requests = o.requests ++ (Talk.pump ctx o.chan.due).requests := by
  simp only [Talk.settle, Out.andThen, Talk.rejudge_requests, Talk.rejudge_due, List.append_nil]

theorem Talk.settle_records : (Talk.settle ctx o).records = o.records ++ (o.chan.rejudge ctx).records := by
  simp only [Talk.settle, Out.andThen, Talk.pump_records, List.append_nil]

theorem Talk.settle_release : (Talk.settle ctx o).release = o.release := by
  simp [Talk.settle, Out.andThen]

theorem Talk.settle_done : (Talk.settle ctx o).done = o.done := by
  simp [Talk.settle, Out.andThen]

variable {ctx o}

/-- Nothing follows at a CLOSED or HALTED channel. -/
theorem Talk.settle_of_stopped (stopped : o.chan.state = .closed ∨ o.chan.state = .halted) : Talk.settle ctx o = o := by
  unfold Talk.settle
  rw [Out.andThen_of_only (Talk.rejudge_of_stopped stopped), Out.andThen_of_only (Talk.pump_of_stopped stopped)]

end

/-! ### A talk channel that enters HALTED (R102, R118) -/

/-- A talk channel in HALTED, with what its ring is left as. -/
def Talk.haltedAs (t : Talk) (reason : HaltReason) (c : ChannelCore) : Talk :=
  { t with
    toChannelCore := c, state := .halted, staging := [], readPoint := none, onLine := none
    haltCause := some reason.cause, heldHalts := [] }

theorem Talk.enterHalted_eq (ctx : ChannelContext) (reason : HaltReason) (t : Talk) : t.enterHalted ctx reason =
    { (t.toChannelCore.halt ctx reason none).mapChan (t.haltedAs reason) with
      records := [haltRecord ctx.channel (reason.detail t.ring.ci)] } := by
  have silent := t.toChannelCore.halt_records ctx reason none
  unfold Talk.enterHalted
  simp only [Out.record, Talk.withCore, Out.mapChan, silent, List.nil_append]
  rfl

theorem Talk.settle_of_halted {ctx : ChannelContext} {reason : HaltReason} (o : Out Talk) :
    Talk.settle ctx (o.andThen (Talk.enterHalted ctx reason)) = o.andThen (Talk.enterHalted ctx reason) := by
  refine Talk.settle_of_stopped (.inr ?_)
  rw [Out.andThen_chan, Talk.enterHalted_eq]
  rfl

end Sys2Proof.Machine

/-! The responses at a talk channel, by purpose (R94 to R97, R99 to R102, R109, R118). -/

namespace Sys2Proof.Machine

/-! ## An outcome that only changes the channel -/

section
variable {s t : State} {k : TalkId} {r : MemRequest} {rest : List MemRequest}

theorem State.talkAnswers (outstanding : s.mpt.outstanding = r :: rest) (live : s.mpt.absorb = 0)
    (requester : r.requester = talkChannel k) (error : Bool) (data : Vector Word 8) :
    ∃ t, exec (.memoryResponse error data) s = .next t ∧
      s.TalkAnswered t k rest (Talk.response (s.talkContext k) (responseWords error data) s.talk[k]) :=
  ⟨_, exec_memoryResponse_talk outstanding live requester error data, State.talkAnswered_applyTalk rfl⟩

section
variable {o : Out Talk} (answered : s.TalkAnswered t k rest (Talk.settle (s.talkContext k) o))
include answered

theorem State.TalkAnswered.settled_chan : t.talk[k] = (Talk.pump (s.talkContext k) o.chan.due).chan := by
  rw [answered.chan, Talk.settle_chan]

theorem State.TalkAnswered.settled_asks : s.talkAsks t k o.requests o.chan.due :=
  answered.asks (Talk.settle_chan _ _) (Talk.settle_requests _ _)

theorem State.TalkAnswered.settled_mailbox (done : o.done = false) : t.hpt.mailbox = s.hpt.mailbox :=
  answered.mailbox ((Talk.settle_done _ _).trans done)

theorem State.TalkAnswered.settled_cle (release : o.release = false) : t.cle = s.cle :=
  answered.cle ((Talk.settle_release _ _).trans release)

/-- What is taken as a current stays so. -/
theorem State.TalkAnswered.settled_current {found : Taken} (current : o.chan.ring.current = some found) :
    t.talk[k].ring.current = some found := by
  rw [answered.settled_chan]
  exact ((Talk.pump_pumped _ o.chan.due).current (Option.isSome_iff_exists.mpr ⟨found, current⟩)).trans current

theorem State.TalkAnswered.settled_ahead {found : Taken} (ahead : o.chan.ring.ahead = some found) :
    t.talk[k].ring.ahead = some found := by
  rw [answered.settled_chan]
  exact ((Talk.pump_pumped _ o.chan.due).ahead (Option.isSome_iff_exists.mpr ⟨found, ahead⟩)).trans ahead

/-- What the requests leave of the channel. -/
theorem State.TalkAnswered.settled_kept : t.talk[k].ring.ci = o.chan.ring.ci ∧
    t.talk[k].ring.position = o.chan.ring.position ∧ t.talk[k].staging = o.chan.staging ∧
    t.talk[k].bound = o.chan.bound ∧ t.talk[k].onLine = o.chan.onLine ∧ t.talk[k].haltCause = o.chan.haltCause ∧
    t.talk[k].heldHalts = o.chan.heldHalts := by
  rw [answered.settled_chan, Talk.pump_ci, Talk.pump_position, Talk.pump_staging, Talk.pump_bound, Talk.pump_onLine,
    Talk.pump_haltCause, Talk.pump_heldHalts]
  exact ⟨rfl, rfl, rfl, rfl, rfl, rfl, rfl⟩

end

/-! ## An outcome that halts the channel (R102) -/

section
variable {o : Out Talk} {reason : HaltReason}

/-- The part after a halt at the channel that an outcome leaves (R102). -/
structure State.TalkHalted (s t : State) (k : TalkId) (rest : List MemRequest) (o : Out Talk) (reason : HaltReason) :
    Prop where
  state : t.talk[k].state = .halted
  haltCause : t.talk[k].haltCause = some reason.cause
  staging : t.talk[k].staging = []
  bound : t.talk[k].bound = o.chan.bound
  ring : t.talk[k].ring = (o.chan.toChannelCore.halt (s.talkContext k) reason none).chan.ring
  current : t.talk[k].ring.current = none
  ahead : t.talk[k].ring.ahead = none
  position : t.talk[k].ring.position = 0
  stale : ∀ x ∈ t.talk[k].requests, x.purpose ≠ .writeback → x.stale = true
  waiting : t.mpt.waiting[talkChannel k] = s.mpt.waiting[talkChannel k] ++ (o.requests ++
    (o.chan.toChannelCore.halt (s.talkContext k) reason none).requests)
  waiting_same : o.requests = [] → (o.chan.toChannelCore.halt (s.talkContext k) reason none).requests = [] →
    t.mpt.waiting = s.mpt.waiting
  evq : t.evq = (s.postAll (o.records ++ [haltRecord (talkChannel k) (reason.detail o.chan.ring.ci)])).evq

theorem State.TalkAnswered.halts
    (answered : s.TalkAnswered t k rest (o.andThen (Talk.enterHalted (s.talkContext k) reason))) :
    s.TalkHalted t k rest o reason := by
  have halted := Talk.enterHalted_eq (s.talkContext k) reason o.chan
  have closes := o.chan.toChannelCore.closes_halt (s.talkContext k) none reason
  have chan : t.talk[k] = o.chan.haltedAs reason (o.chan.toChannelCore.halt (s.talkContext k) reason none).chan := by
    rw [answered.chan, Out.andThen_chan, halted]
    rfl
  have requests : (o.andThen (Talk.enterHalted (s.talkContext k) reason)).requests =
      o.requests ++ (o.chan.toChannelCore.halt (s.talkContext k) reason none).requests := by
    simp only [Out.andThen, halted]
    rfl
  refine ⟨by rw [chan]; rfl, by rw [chan]; rfl, by rw [chan]; rfl, by rw [chan]; rfl, by rw [chan]; rfl,
    by rw [chan]; exact closes.current, by rw [chan]; exact closes.ahead, by rw [chan]; exact closes.position,
    by rw [chan]; exact closes.stale, ?_, fun none noneMore => ?_, ?_⟩
  · rw [answered.waiting_own, requests]
  · exact answered.waiting_same (by rw [requests, none, noneMore]; rfl)
  · rw [answered.evq]
    simp only [Out.andThen, halted]
    rfl

theorem State.TalkHalted.reports (halted : s.TalkHalted t k rest o reason) (few : o.records.length ≤ 2) {detail : Nat}
    (same : reason.detail o.chan.ring.ci = detail) : s.reports t (haltRecord (talkChannel k) detail) := by
  refine State.reports_of_mem halted.evq (List.mem_append_right _ ?_) (by simp; omega)
  rw [same]
  exact List.mem_singleton_self _

end

end

/-! ## The judgement of a fetch (R94 to R96, R108) -/

section
variable {ctx : ChannelContext} {t : Talk} {e : RequestEntry} {data : Vector Word 8} {d : Descriptor}

theorem responseWords_ok (data : Vector Word 8) : responseWords false data = some data.toList := rfl

theorem responseWords_error (data : Vector Word 8) : responseWords true data = none := rfl

section
variable (fetch : e.purpose = .descFetch)
include fetch

theorem Talk.judgeResponse_fetch_error : t.judgeResponse ctx e none = t.fetchFailed ctx e.index := by
  unfold Talk.judgeResponse
  rw [fetch]

theorem Talk.judgeResponse_fetch
    (read : d = { address := data[0], length := data[1].toNat % 16384, event := data[1].getLsbD 30,
                  final := data[1].getLsbD 31 }) :
    t.judgeResponse ctx e (some data.toList) = t.fetched ctx e.index d := by
  unfold Talk.judgeResponse
  rw [fetch]
  exact congrArg (Talk.fetched ctx e.index · t) (descriptorOf_response read)

end

/-- The channel with its current found so. -/
def Talk.withCurrent (t : Talk) (found : Taken) : Talk := { t with ring := { t.ring with current := some found } }

/-- The channel with its ahead found so. -/
def Talk.withAhead (t : Talk) (found : Taken) : Talk := { t with ring := { t.ring with ahead := some found } }

theorem Talk.fetched_current_valid {index : RingIndex} (own : index = t.ring.ci) (valid : d.valid = true) :
    t.fetched ctx index d = Out.only { t.withCurrent (.held d) with readPoint := some (t.ring.ci, 0) } := by
  rw [Talk.fetched, if_pos own, if_pos valid]
  rfl

theorem Talk.fetched_current_bad {index : RingIndex} (own : index = t.ring.ci) (invalid : d.valid = false) :
    t.fetched ctx index d = (t.withCurrent (.bad d)).halt ctx .badDescriptor := by
  rw [Talk.fetched, if_pos own, if_neg (by simp [invalid])]
  rfl

theorem Talk.fetchFailed_current {index : RingIndex} (own : index = t.ring.ci) :
    t.fetchFailed ctx index = (t.withCurrent .fetchError).halt ctx .fetchFailed := if_pos own

section
variable {index : RingIndex} (next : index = t.ring.ci + 1)
include next

theorem Talk.fetched_ahead_valid (valid : d.valid = true) : t.fetched ctx index d = Out.only
    { t.withAhead (.held d) with
      readPoint := if t.readPoint.map Prod.fst ≠ some t.ring.ci then some (t.ring.ci + 1, 0) else t.readPoint } := by
  have other : ¬ index = t.ring.ci := fun own => ringIndex_ne_succ t.ring.ci (own.symm.trans next)
  have point : (if t.readPoint.map Prod.fst == some t.ring.ci then t.readPoint else some (index, 0)) =
      if t.readPoint.map Prod.fst ≠ some t.ring.ci then some (t.ring.ci + 1, 0) else t.readPoint := by
    rw [next, ite_not]
    exact if_congr beq_iff_eq rfl rfl
  rw [Talk.fetched, if_neg other, if_pos valid, point]
  rfl

theorem Talk.fetched_ahead_bad (invalid : d.valid = false) :
    t.fetched ctx index d = Out.only (t.withAhead (.bad d)) := by
  have other : ¬ index = t.ring.ci := fun own => ringIndex_ne_succ t.ring.ci (own.symm.trans next)
  rw [Talk.fetched, if_neg other, if_neg (by simp [invalid])]
  rfl

theorem Talk.fetchFailed_ahead : t.fetchFailed ctx index = Out.only (t.withAhead .fetchError) :=
  if_neg fun own => ringIndex_ne_succ t.ring.ci (own.symm.trans next)

end

end

/-! ## The fetches of a talk channel, one response (R94 to R96) -/

section
variable {s : State} {k : TalkId} {r : MemRequest} {rest : List MemRequest} {e : RequestEntry} {es : List RequestEntry}
  (outstanding : s.mpt.outstanding = r :: rest) (live : s.mpt.absorb = 0) (requester : r.requester = talkChannel k)
  (oldest : s.talk[k].requests = e :: es) (data : Vector Word 8)

include outstanding live requester oldest

/-- A response that is stale, at a channel that makes no request (R109). -/
theorem State.exec_stale_talk (stale : e.stale = true) (stopped : s.talk[k].state = .closed ∨ s.talk[k].state = .halted)
    (error : Bool) : exec (.memoryResponse error data) s = .next
      { s with
        mpt := { s.mpt with outstanding := rest }
        talk := s.talk.set k { s.talk[k] with requests := es } } := by
  rw [exec_memoryResponse_talk outstanding live requester]
  refine next_of_eq (State.applyTalk_only ?_)
  exact (Talk.response_of_stale oldest stale _).trans (Talk.settle_of_stopped stopped)

/-- A live response, judged (R109). -/
theorem State.talkJudged (fresh : e.stale = false) (error : Bool) {o : Out Talk}
    (judged : Talk.judgeResponse (s.talkContext k) e (responseWords error data) { s.talk[k] with requests := es } = o) :
    ∃ t, exec (.memoryResponse error data) s = .next t ∧
      s.TalkAnswered t k rest (Talk.settle (s.talkContext k) o) := by
  obtain ⟨t, run, answered⟩ := State.talkAnswers outstanding live requester error data
  rw [Talk.response_of_live oldest fresh, judged] at answered
  exact ⟨t, run, answered⟩

/-- A live response that halts the channel, judged (R102, R109). -/
theorem State.talkJudgedHalted (fresh : e.stale = false) (error : Bool) {o : Out Talk} {reason : HaltReason}
    (judged : Talk.judgeResponse (s.talkContext k) e (responseWords error data) { s.talk[k] with requests := es } =
      o.andThen (Talk.enterHalted (s.talkContext k) reason)) :
    ∃ t, exec (.memoryResponse error data) s = .next t ∧ s.TalkHalted t k rest o reason := by
  obtain ⟨t, run, answered⟩ := State.talkJudged outstanding live requester oldest data fresh error judged
  rw [Talk.settle_of_halted] at answered
  exact ⟨t, run, answered.halts⟩

end

end Sys2Proof.Machine

/-! The responses at a listen channel, by what follows the judgement (R102, R123, R132, R138). -/

namespace Sys2Proof.Machine

/-! ## What follows the judgement of a response (R132) -/

/-- Two events after an outcome are one if they are at its channel. -/
theorem Out.andThen_congr {α β : Type} {o : Out α} {f g : α → Out β} (h : f o.chan = g o.chan) :
    o.andThen f = o.andThen g := by
  simp only [Out.andThen, h]

/-- The state in line, a CLOSE that can complete completed, and the requests then called for (R123, R132, R138). -/
def Listen.settle (ctx : ChannelContext) (o : Out Listen) : Out Listen :=
  ((o.andThen (Listen.rejudge ctx)).andThen (Listen.closeIfDone ctx)).andThen (Listen.pump ctx)

/-- A CLOSE that has been applied has nothing to wait for (R138). -/
def Listen.closesNow (l : Listen) : Prop := l.close = .applied ∧ l.writing = false

section
variable {ctx : ChannelContext} {l : Listen} {e : RequestEntry} {es : List RequestEntry}

theorem Listen.response_of_live (oldest : l.requests = e :: es) (live : e.stale = false) (words : Option (List Word)) :
    l.response ctx words = Listen.settle ctx (Listen.judgeResponse ctx e words { l with requests := es }) := by
  unfold Listen.response
  rw [oldest]
  dsimp only
  rw [live]
  rfl

theorem Listen.response_of_stale (oldest : l.requests = e :: es) (stale : e.stale = true) (words : Option (List Word)) :
    l.response ctx words = Listen.settle ctx (Out.only { l with requests := es }) := by
  unfold Listen.response
  rw [oldest]
  dsimp only
  rw [stale]
  rfl

theorem Listen.writing_iff : l.writing = true ↔ writesLeft l.requests := by
  simp [Listen.writing, writesLeft]

theorem Listen.closeIfDone_of_not (waits : ¬ l.closesNow) : l.closeIfDone ctx = Out.only l :=
  if_neg (by simpa [Listen.closesNow] using waits)

theorem Listen.closeIfDone_of_closesNow (closes : l.closesNow) : l.closeIfDone ctx = l.closeComplete ctx :=
  if_pos (by simpa [Listen.closesNow] using closes)

variable {o : Out Listen}

/-- While no CLOSE completes, what follows is as at a talk channel. -/
theorem Listen.settle_of_open (waits : ¬ o.chan.closesNow) :
    Listen.settle ctx o = (o.andThen (Listen.rejudge ctx)).andThen (Listen.pump ctx) := by
  have still : ¬ (o.andThen (Listen.rejudge ctx)).chan.closesNow := by
    rw [Out.andThen_chan, Listen.rejudge_due]
    exact waits
  rw [Listen.settle, Out.andThen_of_only (Listen.closeIfDone_of_not still)]

section
variable (waits : ¬ o.chan.closesNow)
include waits

theorem Listen.settle_chan : (Listen.settle ctx o).chan = (Listen.pump ctx o.chan.due).chan := by
  rw [Listen.settle_of_open waits, Out.andThen_chan, Out.andThen_chan, Listen.rejudge_due]

theorem Listen.settle_requests :
    (Listen.settle ctx o).requests = o.requests ++ (Listen.pump ctx o.chan.due).requests := by
  rw [Listen.settle_of_open waits]
  simp only [Out.andThen, Listen.rejudge_requests, Listen.rejudge_due, List.append_nil]

theorem Listen.settle_records : (Listen.settle ctx o).records = o.records ++ (o.chan.rejudge ctx).records := by
  rw [Listen.settle_of_open waits]
  simp only [Out.andThen, Listen.pump_records, List.append_nil]

theorem Listen.settle_done : (Listen.settle ctx o).done = o.done := by
  rw [Listen.settle_of_open waits]
  simp [Out.andThen]

/-- Nothing follows at a CLOSED or HALTED channel. -/
theorem Listen.settle_of_stopped (stopped : o.chan.state = .closed ∨ o.chan.state = .halted) :
    Listen.settle ctx o = o := by
  rw [Listen.settle_of_open waits, Out.andThen_of_only (Listen.rejudge_of_stopped stopped),
    Out.andThen_of_only (Listen.pump_of_stopped stopped)]

end

/-- A CLOSE completes, and the CLOSED channel makes no request (R138). -/
theorem Listen.settle_of_closes (closes : o.chan.closesNow) : Listen.settle ctx o =
    (o.andThen (Listen.rejudge ctx)).andThen (Listen.closeComplete ctx) := by
  have still : (o.andThen (Listen.rejudge ctx)).chan.closesNow := by
    rw [Out.andThen_chan, Listen.rejudge_due]
    exact closes
  have completes : (o.andThen (Listen.rejudge ctx)).andThen (Listen.closeIfDone ctx) =
      (o.andThen (Listen.rejudge ctx)).andThen (Listen.closeComplete ctx) :=
    Out.andThen_congr (Listen.closeIfDone_of_closesNow still)
  rw [Listen.settle, completes]
  refine Out.andThen_of_only (Listen.pump_of_stopped (.inl ?_))
  rw [Out.andThen_chan]
  rfl

end

/-! ## The part after a response at a listen channel -/

section
variable {s t : State} {k : ListenId} {r : MemRequest} {rest : List MemRequest}

section
variable {o : Out Listen} (answered : s.ListenAnswered t k rest (Listen.settle (s.listenContext k) o))
  (waits : ¬ o.chan.closesNow)
include answered waits

theorem State.ListenAnswered.settled_chan : t.listen[k] = (Listen.pump (s.listenContext k) o.chan.due).chan := by
  rw [answered.chan, Listen.settle_chan waits]

theorem State.ListenAnswered.settled_asks : s.listenAsks t k o.requests o.chan.due :=
  answered.asks (Listen.settle_chan waits) (Listen.settle_requests waits)

theorem State.ListenAnswered.settled_mailbox (done : o.done = false) : t.hpt.mailbox = s.hpt.mailbox :=
  answered.mailbox ((Listen.settle_done waits).trans done)

theorem State.ListenAnswered.settled_current {found : Taken} (current : o.chan.ring.current = some found) :
    t.listen[k].ring.current = some found := by
  rw [answered.settled_chan waits]
  exact ((Listen.pump_pumped _ o.chan.due).current (Option.isSome_iff_exists.mpr ⟨found, current⟩)).trans current

theorem State.ListenAnswered.settled_ahead {found : Taken} (ahead : o.chan.ring.ahead = some found) :
    t.listen[k].ring.ahead = some found := by
  rw [answered.settled_chan waits]
  exact ((Listen.pump_pumped _ o.chan.due).ahead (Option.isSome_iff_exists.mpr ⟨found, ahead⟩)).trans ahead

/-- What the requests leave of the channel. -/
theorem State.ListenAnswered.settled_kept : t.listen[k].ring.ci = o.chan.ring.ci ∧
    t.listen[k].ring.position = o.chan.ring.position ∧
    t.listen[k].inWrite ++ t.listen[k].waiting = o.chan.inWrite ++ o.chan.waiting ∧
    t.listen[k].bound = o.chan.bound ∧ t.listen[k].haltCause = o.chan.haltCause ∧
    t.listen[k].lastSequence = o.chan.lastSequence ∧ t.listen[k].close = o.chan.close := by
  rw [answered.settled_chan waits, Listen.pump_ci, Listen.pump_position, Listen.pump_deposit, Listen.pump_bound,
    Listen.pump_haltCause, Listen.pump_lastSequence, Listen.pump_close]
  exact ⟨rfl, rfl, rfl, rfl, rfl, rfl, rfl⟩

end

/-! ## A CLOSE that completes (R104, R138) -/

section
variable {o : Out Listen}

/-- The ring's last use as the CLOSE completes (R104). -/
def Listen.lastUse (ctx : ChannelContext) (l : Listen) : Out ChannelCore := l.toChannelCore.close ctx l.lastSequence

theorem Listen.settle_closes (ctx : ChannelContext) (closes : o.chan.closesNow) :
    (Listen.settle ctx o).chan = o.chan.due.closedAs (o.chan.lastUse ctx).chan ∧
      (Listen.settle ctx o).requests = o.requests ++ (o.chan.lastUse ctx).requests ∧
      (Listen.settle ctx o).done = true := by
  rw [Listen.settle_of_closes closes]
  refine ⟨?_, ?_, ?_⟩
  · rw [Out.andThen_chan, Out.andThen_chan, Listen.rejudge_due]
    rfl
  · simp only [Out.andThen, Listen.rejudge_requests, Listen.rejudge_due, List.append_nil]
    rfl
  · simp [Out.andThen, Listen.closeComplete_eq]

variable (answered : s.ListenAnswered t k rest (Listen.settle (s.listenContext k) o)) (now : o.chan.closesNow)
include answered now

theorem State.ListenAnswered.closed_chan :
    t.listen[k] = o.chan.due.closedAs (o.chan.lastUse (s.listenContext k)).chan := by
  rw [answered.chan, (Listen.settle_closes _ now).1]

theorem State.ListenAnswered.closes : s.listenCloses t k := by
  have used := o.chan.toChannelCore.closes_close (s.listenContext k) o.chan.lastSequence
  obtain ⟨-, -, done⟩ := Listen.settle_closes (s.listenContext k) now
  rw [State.listenCloses, answered.closed_chan now]
  exact ⟨rfl, rfl, rfl, rfl, rfl, rfl, rfl, rfl, used.current, used.ahead, used.position, rfl, rfl, used.stale,
    answered.completes done⟩

theorem State.ListenAnswered.closed_waiting : t.mpt.waiting[listenChannel k] =
    s.mpt.waiting[listenChannel k] ++ (o.requests ++ (o.chan.lastUse (s.listenContext k)).requests) := by
  rw [answered.waiting_own, (Listen.settle_closes _ now).2.1]

end

/-! ## A listen channel that enters HALTED (R102, R134, R135) -/

/-- A listen channel in HALTED, with what its ring is left as. -/
def Listen.haltedAs (l : Listen) (reason : HaltReason) (c : ChannelCore) : Listen :=
  { l with
    toChannelCore := c, state := .halted, inWrite := [], waiting := [], writePoint := none, expected := none
    lastSequence := none, haltCause := some reason.cause, episode := none }

/-- The ring of a listen channel that enters HALTED (R102). -/
def Listen.haltUse (ctx : ChannelContext) (reason : HaltReason) (l : Listen) : Out ChannelCore :=
  l.toChannelCore.halt ctx reason l.lastSequence

theorem Listen.endEpisode_records_length (ctx : ChannelContext) (l : Listen) : (l.endEpisode ctx).records.length ≤ 1 := by
  unfold Listen.endEpisode
  split
  · exact Nat.zero_le 1
  · exact le_rfl

theorem Listen.enterHalted_eq (ctx : ChannelContext) (reason : HaltReason) (l : Listen) :
    (l.enterHalted ctx reason).chan = l.haltedAs reason (l.haltUse ctx reason).chan ∧
      (l.enterHalted ctx reason).requests = (l.haltUse ctx reason).requests ∧
      (l.enterHalted ctx reason).done = false ∧
      ∃ ended, (l.enterHalted ctx reason).records =
        ended ++ [haltRecord ctx.channel (reason.detail l.ring.ci)] ∧ ended.length ≤ 1 := by
  have silent := l.toChannelCore.halt_records ctx reason l.lastSequence
  have undone := l.toChannelCore.halt_done ctx l.lastSequence reason
  unfold Listen.enterHalted
  refine ⟨?_, ?_, ?_, ?_⟩
  · simp only [Out.record, Out.andThen_chan, Listen.endEpisode_chan]
    rfl
  · simp only [Out.record, Out.andThen, Listen.endEpisode_requests, List.append_nil]
    rfl
  · simp only [Out.record, Out.andThen, Listen.endEpisode_done, Bool.or_false]
    exact undone
  · simp only [Out.record, Out.andThen, Listen.withCore, Out.mapChan, silent, List.nil_append]
    exact ⟨_, rfl, Listen.endEpisode_records_length ctx _⟩

/-- No write is left after a halt, so that a CLOSE that has been applied completes (R102, R138). -/
theorem Listen.haltedAs_writing (ctx : ChannelContext) (reason : HaltReason) (l : Listen) :
    (l.haltedAs reason (l.haltUse ctx reason).chan).writing = false := by
  have closes := l.toChannelCore.closes_halt ctx l.lastSequence reason
  rw [Bool.eq_false_iff, ne_eq, Listen.writing_iff]
  rintro ⟨x, mem, write, live⟩
  have stale := closes.stale x mem (by rw [write]; decide)
  simp [live] at stale

/-- The part after a halt at the listen channel that an outcome leaves (R102, R138). -/
structure State.ListenHalted (s t : State) (k : ListenId) (o : Out Listen) (reason : HaltReason) : Prop where
  halts : o.chan.bound = s.listen[k].bound → o.chan.close = s.listen[k].close → o.done = false →
    s.listenHalts t k reason.cause
  ci : t.listen[k].ring.ci = (o.chan.haltUse (s.listenContext k) reason).chan.ring.ci
  waiting : t.mpt.waiting[listenChannel k] = s.mpt.waiting[listenChannel k] ++
    (o.requests ++ (o.chan.haltUse (s.listenContext k) reason).requests)
  waiting_same : o.requests = [] → (o.chan.haltUse (s.listenContext k) reason).requests = [] →
    t.mpt.waiting = s.mpt.waiting
  evq : ∃ ended, t.evq = (s.postAll (o.records ++ (ended ++
    [haltRecord (listenChannel k) (reason.detail o.chan.ring.ci)]))).evq ∧ ended.length ≤ 1

theorem State.ListenAnswered.halts {o : Out Listen} {reason : HaltReason} (answered : s.ListenAnswered t k rest
    (Listen.settle (s.listenContext k) (o.andThen (Listen.enterHalted (s.listenContext k) reason)))) :
    s.ListenHalted t k o reason := by
  obtain ⟨chan, requests, done, ended, records, short⟩ := Listen.enterHalted_eq (s.listenContext k) reason o.chan
  have ring := o.chan.toChannelCore.closes_halt (s.listenContext k) o.chan.lastSequence reason
  have quiet := Listen.haltedAs_writing (s.listenContext k) reason o.chan
  generalize hu : o.andThen (Listen.enterHalted (s.listenContext k) reason) = u at answered
  have uChan : u.chan = o.chan.haltedAs reason (o.chan.haltUse (s.listenContext k) reason).chan := by
    rw [← hu, Out.andThen_chan, chan]
  have uRequests : u.requests = o.requests ++ (o.chan.haltUse (s.listenContext k) reason).requests := by
    rw [← hu, Out.andThen, requests]
  have uRecords : u.records = o.records ++ (ended ++ [haltRecord (listenChannel k) (reason.detail o.chan.ring.ci)]) := by
    rw [← hu, Out.andThen, records]
    rfl
  have uDone : u.done = o.done := by
    rw [← hu, Out.andThen, done, Bool.or_false]
  have halted : u.chan.state = .halted := by rw [uChan]; rfl
  by_cases closes : u.chan.closesNow
  · have unused : u.chan.lastUse (s.listenContext k) =
        Out.only { ring := u.chan.ring.emptied, requests := staleEntries u.chan.requests } :=
      ChannelCore.close_of_unused _ _ (.inl (by rw [uChan]; exact congrArg heldOf ring.current))
    have closed := answered.closed_chan closes
    refine ⟨fun bound close undone => ⟨?_, fun applied => answered.closes closes, fun other => ?_⟩, ?_, ?_,
      fun none noneMore => ?_, ended, ?_, short⟩
    · rw [closed, uChan]
      rfl
    · refine absurd ?_ other
      rw [← close]
      have applied := closes.1
      rw [uChan] at applied
      exact applied
    · rw [closed, unused, uChan]
      rfl
    · rw [answered.closed_waiting closes, unused, uRequests, Out.only_requests, List.append_nil]
    · refine answered.waiting_same ?_
      rw [(Listen.settle_closes _ closes).2.1, unused, uRequests, none, noneMore]
      rfl
    · rw [answered.evq, Listen.settle_of_closes closes, ← uRecords]
      simp only [Out.andThen, Listen.rejudge_of_stopped (.inr halted), Out.only_records, List.append_nil]
      have silent := (u.chan.toChannelCore.closes_close (s.listenContext k) u.chan.lastSequence).records
      rw [Listen.closeComplete_eq]
      simp only [Out.mapChan, Out.only_chan, silent, List.append_nil]
  · rw [Listen.settle_of_stopped closes (.inr halted)] at answered
    refine ⟨fun bound close undone => ⟨?_, fun applied => ?_, fun other => ?_⟩, ?_, ?_, fun none noneMore => ?_,
      ended, ?_, short⟩
    · rw [answered.chan, uChan]
      rfl
    · refine absurd ⟨?_, ?_⟩ closes
      · rw [uChan]
        exact close.trans applied
      · rw [uChan]
        exact quiet
    · rw [answered.chan, uChan]
      exact ⟨rfl, rfl, bound, rfl, rfl, rfl, rfl, rfl, ring.current, ring.ahead, ring.position, close, ring.stale,
        answered.mailbox (uDone.trans undone)⟩
    · rw [answered.chan, uChan]
      rfl
    · rw [answered.waiting_own, uRequests]
    · exact answered.waiting_same (by rw [uRequests, none, noneMore]; rfl)
    · rw [answered.evq, uRecords]

theorem State.ListenHalted.reports {o : Out Listen} {reason : HaltReason} (halted : s.ListenHalted t k o reason)
    (few : o.records.length ≤ 1) {detail : Nat} (same : reason.detail o.chan.ring.ci = detail) :
    s.reports t (haltRecord (listenChannel k) detail) := by
  obtain ⟨ended, evq, short⟩ := halted.evq
  refine State.reports_of_mem evq (List.mem_append_right _ (List.mem_append_right _ ?_)) (by simp; omega)
  rw [same]
  exact List.mem_singleton_self _

end

end Sys2Proof.Machine

/-! The responses to the fetches of both kinds of channel (R94 to R96, R102, R109, R132). -/

namespace Sys2Proof.Machine

/-! ## A fetch of a listen channel, judged (R94 to R96, R131) -/

section
variable {ctx : ChannelContext} {l : Listen} {e : RequestEntry} {data : Vector Word 8} {d : Descriptor}

section
variable (fetch : e.purpose = .descFetch)
include fetch

theorem Listen.judgeResponse_fetch_error : l.judgeResponse ctx e none = l.fetchFailed ctx e.index := by
  unfold Listen.judgeResponse
  rw [fetch]

theorem Listen.judgeResponse_fetch
    (read : d = { address := data[0], length := data[1].toNat % 16384, event := data[1].getLsbD 30,
                  final := data[1].getLsbD 31 }) :
    l.judgeResponse ctx e (some data.toList) = l.fetched ctx e.index d := by
  unfold Listen.judgeResponse
  rw [fetch]
  exact congrArg (Listen.fetched ctx e.index · l) (descriptorOf_response read)

end

/-- The channel with its current found so. -/
def Listen.withCurrent (l : Listen) (found : Taken) : Listen := { l with ring := { l.ring with current := some found } }

/-- The channel with its ahead found so. -/
def Listen.withAhead (l : Listen) (found : Taken) : Listen := { l with ring := { l.ring with ahead := some found } }

theorem Listen.fetched_current_valid {index : RingIndex} (own : index = l.ring.ci) (valid : d.valid = true) :
    l.fetched ctx index d = Out.only { l.withCurrent (.held d) with writePoint := some (l.ring.ci, 0) } := by
  rw [Listen.fetched, if_pos own, if_pos valid]
  rfl

theorem Listen.fetched_current_bad {index : RingIndex} (own : index = l.ring.ci) (invalid : d.valid = false) :
    l.fetched ctx index d = (l.withCurrent (.bad d)).enterHalted ctx .badDescriptor := by
  rw [Listen.fetched, if_pos own, if_neg (by simp [invalid])]
  rfl

theorem Listen.fetchFailed_current {index : RingIndex} (own : index = l.ring.ci) :
    l.fetchFailed ctx index = (l.withCurrent .fetchError).enterHalted ctx .fetchFailed := if_pos own

section
variable {index : RingIndex} (next : index = l.ring.ci + 1)
include next

theorem Listen.fetched_ahead_valid (valid : d.valid = true) : l.fetched ctx index d = Out.only
    { l.withAhead (.held d) with
      writePoint := if l.writePoint = none then some (l.ring.ci + 1, 0) else l.writePoint } := by
  have other : ¬ index = l.ring.ci := fun own => ringIndex_ne_succ l.ring.ci (own.symm.trans next)
  have point : (if l.writePoint.isSome then l.writePoint else some (index, 0)) =
      if l.writePoint = none then some (l.ring.ci + 1, 0) else l.writePoint := by
    rw [next]
    cases l.writePoint <;> rfl
  rw [Listen.fetched, if_neg other, if_pos valid, point]
  rfl

theorem Listen.fetched_ahead_bad (invalid : d.valid = false) :
    l.fetched ctx index d = Out.only (l.withAhead (.bad d)) := by
  have other : ¬ index = l.ring.ci := fun own => ringIndex_ne_succ l.ring.ci (own.symm.trans next)
  rw [Listen.fetched, if_neg other, if_neg (by simp [invalid])]
  rfl

theorem Listen.fetchFailed_ahead : l.fetchFailed ctx index = Out.only (l.withAhead .fetchError) :=
  if_neg fun own => ringIndex_ne_succ l.ring.ci (own.symm.trans next)

end

/-- A halt that takes its steps is an event after an outcome that only changes the channel. -/
theorem Talk.halt_eq_andThen {t : Talk} {reason : HaltReason} (quiet : t.onLine = none) :
    t.halt ctx reason = (Out.only t).andThen (Talk.enterHalted ctx reason) :=
  (Talk.halt_of_quiet quiet).trans (Out.only_andThen t (Talk.enterHalted ctx reason)).symm

theorem Listen.enterHalted_eq_andThen (l : Listen) (reason : HaltReason) :
    l.enterHalted ctx reason = (Out.only l).andThen (Listen.enterHalted ctx reason) :=
  (Out.only_andThen l (Listen.enterHalted ctx reason)).symm

theorem Listen.not_closesNow_of_close (close : l.close ≠ .applied) : ¬ l.closesNow := fun now => close now.1

end

/-! ## One response at a listen channel -/

section
variable {s : State} {k : ListenId} {r : MemRequest} {rest : List MemRequest} {e : RequestEntry} {es : List RequestEntry}
  (outstanding : s.mpt.outstanding = r :: rest) (live : s.mpt.absorb = 0) (requester : r.requester = listenChannel k)
  (oldest : s.listen[k].requests = e :: es) (data : Vector Word 8)

include outstanding live requester oldest

/-- A response that is stale, at a channel that makes no request and closes for none (R132). -/
theorem State.exec_stale_listen (stale : e.stale = true) (close : s.listen[k].close ≠ .applied)
    (stopped : s.listen[k].state = .closed ∨ s.listen[k].state = .halted) (error : Bool) :
    exec (.memoryResponse error data) s = .next
      { s with
        mpt := { s.mpt with outstanding := rest }
        listen := s.listen.set k { s.listen[k] with requests := es } } := by
  rw [exec_memoryResponse_listen outstanding live requester]
  refine next_of_eq (State.applyListen_only ?_)
  exact (Listen.response_of_stale oldest stale _).trans
    (Listen.settle_of_stopped (Listen.not_closesNow_of_close close) stopped)

/-- A live response, judged (R132). -/
theorem State.listenJudged (fresh : e.stale = false) (error : Bool) {o : Out Listen}
    (judged : Listen.judgeResponse (s.listenContext k) e (responseWords error data) { s.listen[k] with requests := es } =
      o) :
    ∃ t, exec (.memoryResponse error data) s = .next t ∧
      s.ListenAnswered t k rest (Listen.settle (s.listenContext k) o) := by
  refine ⟨_, exec_memoryResponse_listen outstanding live requester error data, State.listenAnswered_applyListen ?_⟩
  rw [Listen.response_of_live oldest fresh, judged]

/-- A live response that halts the channel, judged (R102, R132). -/
theorem State.listenJudgedHalted (fresh : e.stale = false) (error : Bool) {o : Out Listen} {reason : HaltReason}
    (judged : Listen.judgeResponse (s.listenContext k) e (responseWords error data) { s.listen[k] with requests := es } =
      o.andThen (Listen.enterHalted (s.listenContext k) reason)) :
    ∃ t, exec (.memoryResponse error data) s = .next t ∧ s.ListenHalted t k o reason := by
  obtain ⟨t, run, answered⟩ := State.listenJudged outstanding live requester oldest data fresh error judged
  exact ⟨t, run, answered.halts⟩

end

/-! ## The three findings of an ahead's fetch (R94 to R96) -/

/-- What the response to a fetch finds (R94 to R96). -/
def Descriptor.foundAs (d : Descriptor) (error : Bool) (found : Taken) : Prop :=
  (error = false ∧ d.length ≠ 0 ∧ d.address.toNat % 4 = 0 ∧
      d.address.toNat / 65536 = (d.address.toNat + 4 * d.length - 1) / 65536 ∧ found = .held d) ∨
    (error = false ∧ (d.length = 0 ∨ d.address.toNat % 4 ≠ 0 ∨
      d.address.toNat / 65536 ≠ (d.address.toNat + 4 * d.length - 1) / 65536) ∧ found = .bad d) ∨
    (error = true ∧ found = .fetchError)

section
variable {e : RequestEntry} {data : Vector Word 8} {d : Descriptor} {error : Bool} {found : Taken} (fetch : e.purpose = .descFetch)
  (read : d = { address := data[0], length := data[1].toNat % 16384, event := data[1].getLsbD 30,
                final := data[1].getLsbD 31 })
  (finds : d.foundAs error found)
include fetch read finds

theorem Talk.judgeResponse_ahead {ctx : ChannelContext} {t : Talk} (next : e.index = t.ring.ci + 1) :
    t.judgeResponse ctx e (responseWords error data) = Out.only { t.withAhead found with
      readPoint := if found = .held d ∧ t.readPoint.map Prod.fst ≠ some t.ring.ci then some (t.ring.ci + 1, 0)
        else t.readPoint } := by
  rcases finds with ⟨rfl, nonempty, aligned, inside, rfl⟩ | ⟨rfl, bad, rfl⟩ | ⟨rfl, rfl⟩
  · rw [responseWords_ok, Talk.judgeResponse_fetch fetch read,
      Talk.fetched_ahead_valid next (Descriptor.valid_iff.mpr ⟨nonempty, aligned, inside⟩)]
    simp only [true_and]
  · rw [responseWords_ok, Talk.judgeResponse_fetch fetch read,
      Talk.fetched_ahead_bad next (Descriptor.valid_eq_false bad), if_neg (by simp)]
    rfl
  · rw [responseWords_error, Talk.judgeResponse_fetch_error fetch, Talk.fetchFailed_ahead next, if_neg (by simp)]
    rfl

theorem Listen.judgeResponse_ahead {ctx : ChannelContext} {l : Listen} (next : e.index = l.ring.ci + 1) :
    l.judgeResponse ctx e (responseWords error data) = Out.only { l.withAhead found with
      writePoint := if found = .held d ∧ l.writePoint = none then some (l.ring.ci + 1, 0) else l.writePoint } := by
  rcases finds with ⟨rfl, nonempty, aligned, inside, rfl⟩ | ⟨rfl, bad, rfl⟩ | ⟨rfl, rfl⟩
  · rw [responseWords_ok, Listen.judgeResponse_fetch fetch read,
      Listen.fetched_ahead_valid next (Descriptor.valid_iff.mpr ⟨nonempty, aligned, inside⟩)]
    simp only [true_and]
  · rw [responseWords_ok, Listen.judgeResponse_fetch fetch read,
      Listen.fetched_ahead_bad next (Descriptor.valid_eq_false bad), if_neg (by simp)]
    rfl
  · rw [responseWords_error, Listen.judgeResponse_fetch_error fetch, Listen.fetchFailed_ahead next, if_neg (by simp)]
    rfl

end

/-- Settles O45: by staleness, by current and ahead, and by what the response finds; a halt is held while a burst of a
talk channel is on the line. -/
theorem fetchResponsesAreChecked : Obligations.FetchResponsesAreChecked := by
  refine ⟨fun s k r rest e es data outstanding live requester oldest fetch => ?_,
    fun s k r rest e es data outstanding live requester oldest fetch close => ?_⟩
  · have judged := State.talkJudged outstanding live requester oldest data
    have halted := State.talkJudgedHalted outstanding live requester oldest data
    refine ⟨State.exec_stale_talk outstanding live requester oldest data,
      fun fresh own d read => ⟨fun nonempty aligned inside => ?_, fun quiet bad => ?_, fun quiet => ?_⟩,
      fun fresh own busy d read => ⟨fun bad => ?_, ?_⟩,
      fun fresh next fetching c d current read error found finds => ?_⟩
    · have valid := Descriptor.valid_iff.mpr ⟨nonempty, aligned, inside⟩
      obtain ⟨t, run, answered⟩ := judged fresh false
        ((Talk.judgeResponse_fetch fetch read).trans (Talk.fetched_current_valid (by exact own) valid))
      obtain ⟨ci, position, staging, -⟩ := answered.settled_kept
      exact ⟨t, run, answered.settled_current rfl, answered.settled_asks, position, ci, staging, answered.outstanding,
        answered.others, answered.listen, answered.stc, answered.smap, answered.settled_cle rfl,
        answered.settled_mailbox rfl⟩
    · have enters := (Talk.judgeResponse_fetch (ctx := s.talkContext k) (t := { s.talk[k] with requests := es }) fetch
        read).trans (Talk.fetched_current_bad (by exact own) (Descriptor.valid_eq_false bad))
      rw [Talk.halt_eq_andThen (by exact quiet)] at enters
      obtain ⟨t, run, after⟩ := halted fresh false enters
      refine ⟨t, run, after.state, after.haltCause, by rw [after.ring]; rfl, after.current, after.ahead, after.staging,
        after.bound, after.waiting, after.reports (Nat.zero_le 2) rfl⟩
    · have enters := (Talk.judgeResponse_fetch_error (ctx := s.talkContext k) (t := { s.talk[k] with requests := es })
        fetch).trans (Talk.fetchFailed_current (by exact own))
      rw [Talk.halt_eq_andThen (by exact quiet)] at enters
      obtain ⟨t, run, after⟩ := halted fresh true enters
      exact ⟨t, run, after.state, after.reports (Nat.zero_le 2) rfl, after.haltCause, by rw [after.ring]; rfl,
        after.current, after.ahead, after.waiting_same rfl rfl, after.bound⟩
    · have holds := (Talk.judgeResponse_fetch (ctx := s.talkContext k) (t := { s.talk[k] with requests := es }) fetch
        read).trans (Talk.fetched_current_bad (by exact own) (Descriptor.valid_eq_false bad))
      rw [Talk.halt_of_onLine (by exact busy)] at holds
      obtain ⟨t, run, answered⟩ := judged fresh false holds
      obtain ⟨-, -, staging, -, onLine, haltCause, heldHalts⟩ := answered.settled_kept
      exact ⟨t, run, answered.settled_current rfl, heldHalts, onLine, haltCause, staging⟩
    · have holds := (Talk.judgeResponse_fetch_error (ctx := s.talkContext k) (t := { s.talk[k] with requests := es })
        fetch).trans (Talk.fetchFailed_current (by exact own))
      rw [Talk.halt_of_onLine (by exact busy)] at holds
      obtain ⟨t, run, answered⟩ := judged fresh true holds
      obtain ⟨-, -, staging, -, onLine, haltCause, heldHalts⟩ := answered.settled_kept
      exact ⟨t, run, answered.settled_current rfl, heldHalts, onLine, haltCause, staging⟩
    · obtain ⟨t, run, answered⟩ := judged fresh error (Talk.judgeResponse_ahead fetch read finds (by exact next))
      obtain ⟨ci, position, staging, bound, -, haltCause, heldHalts⟩ := answered.settled_kept
      exact ⟨t, run, answered.settled_ahead rfl, answered.settled_asks, answered.settled_current current, ci, position,
        haltCause, heldHalts, staging, bound, answered.outstanding⟩
  · have judged := State.listenJudged outstanding live requester oldest data
    have halted := State.listenJudgedHalted outstanding live requester oldest data
    have unapplied : s.listen[k].close ≠ .applied := by
      rw [close]
      decide
    have waits : ∀ l : Listen, l.close = s.listen[k].close → ¬ l.closesNow := fun l same =>
      Listen.not_closesNow_of_close (same ▸ unapplied)
    refine ⟨fun stale => State.exec_stale_listen outstanding live requester oldest data stale unapplied,
      fun fresh own d read => ⟨fun nonempty aligned inside => ?_, fun bad => ?_, ?_⟩,
      fun fresh next fetching c d current read error found finds => ?_⟩
    · have valid := Descriptor.valid_iff.mpr ⟨nonempty, aligned, inside⟩
      obtain ⟨t, run, answered⟩ := judged fresh false
        ((Listen.judgeResponse_fetch fetch read).trans (Listen.fetched_current_valid (by exact own) valid))
      obtain ⟨ci, position, deposit, bound, -⟩ := answered.settled_kept (waits _ rfl)
      exact ⟨t, run, answered.settled_current (waits _ rfl) rfl, answered.settled_asks (waits _ rfl), position, ci, deposit, bound,
        answered.outstanding, answered.others, answered.talk, answered.stc, answered.smap, answered.cle,
        answered.settled_mailbox (waits _ rfl) rfl⟩
    · have enters := (Listen.judgeResponse_fetch (ctx := s.listenContext k) (l := { s.listen[k] with requests := es })
        fetch read).trans (Listen.fetched_current_bad (by exact own) (Descriptor.valid_eq_false bad))
      rw [Listen.enterHalted_eq_andThen] at enters
      obtain ⟨t, run, after⟩ := halted fresh false enters
      obtain ⟨state, haltCause, bound, expected, -, inWrite, waiting, -, current, ahead, -⟩ :=
        (after.halts rfl rfl rfl).2.2 unapplied
      exact ⟨t, run, state, haltCause, after.ci, current, ahead, inWrite, waiting, expected, bound, after.waiting,
        after.reports (Nat.zero_le 1) rfl⟩
    · have enters := (Listen.judgeResponse_fetch_error (ctx := s.listenContext k) (l := { s.listen[k] with requests := es })
        fetch).trans (Listen.fetchFailed_current (by exact own))
      rw [Listen.enterHalted_eq_andThen] at enters
      obtain ⟨t, run, after⟩ := halted fresh true enters
      obtain ⟨state, haltCause, bound, -, -, -, -, -, current, ahead, -⟩ := (after.halts rfl rfl rfl).2.2 unapplied
      exact ⟨t, run, state, after.reports (Nat.zero_le 1) rfl, haltCause, after.ci, current, ahead,
        after.waiting_same rfl rfl, bound⟩
    · obtain ⟨t, run, answered⟩ := judged fresh error (Listen.judgeResponse_ahead fetch read finds (by exact next))
      obtain ⟨ci, position, deposit, bound, haltCause, -⟩ := answered.settled_kept (waits _ rfl)
      exact ⟨t, run, answered.settled_ahead (waits _ rfl) rfl, answered.settled_asks (waits _ rfl), answered.settled_current (waits _ rfl) current,
        ci, position, haltCause, deposit, bound, answered.outstanding⟩

end Sys2Proof.Machine

/-! The responses to a talk channel's data read and to a writeback of either kind of channel (R99 to R102, R109, R132). -/

namespace Sys2Proof.Machine

/-! ## The records of a writeback's response (R99, R100) -/

/-- BUFFER_DONE of a descriptor (R99). -/
def bufferDoneRecord (c : ChannelId) (index : RingIndex) : EventRecord :=
  event .bufferDone index.val (channel := some c)

/-- WRITEBACK_FAILED of a descriptor (R100). -/
def writebackFailedRecord (c : ChannelId) (index : RingIndex) : EventRecord :=
  event .writebackFailed index.val (channel := some c)

/-- The writeback that makes BUFFER_DONE: an OK one of a descriptor with EVENT (R99). -/
theorem RequestEntry.reports_iff (e : RequestEntry) : (e.ok && e.event) = true ↔ e.ok = true ∧ e.event = true :=
  Bool.and_eq_true_iff

section
variable {s t : State}

/-- A record of another kind than `p` allows for: the queue grows by records of the other kinds only. -/
theorem State.queue_of_kinds {p : EventKind → Prop} {rs : List EventRecord} (evq : t.evq = (s.postAll rs).evq)
    (kinds : ∀ r ∈ rs, p r.kind) : ∃ more, t.evq.queue = s.evq.queue ++ more ∧ ∀ x ∈ more, p x.kind := by
  rw [evq]
  exact State.postAll_queue_kinds kinds s

/-- The response to a writeback that is OK: BUFFER_DONE stands first if it is made, and nothing else is BUFFER_DONE. -/
theorem State.queue_of_bufferDone {e : RequestEntry} {c : ChannelId} {rs : List EventRecord}
    (evq : t.evq = (s.postAll ((if e.ok = true ∧ e.event = true then [bufferDoneRecord c e.index] else []) ++ rs)).evq)
    (kinds : ∀ r ∈ rs, r.kind ≠ .bufferDone) (place : s.evq.queue.length < 32) :
    ∃ more, (e.ok = true → e.event = true → s.records .bufferDone = true →
        t.evq.queue = s.evq.queue ++ { bufferDoneRecord c e.index with stamp := s.stamp } :: more) ∧
      (e.ok = false ∨ e.event = false → t.evq.queue = s.evq.queue ++ more ∧ ∀ x ∈ more, x.kind ≠ .bufferDone) := by
  by_cases made : e.ok = true ∧ e.event = true
  · rw [if_pos made] at evq
    have silent : ¬ (e.ok = false ∨ e.event = false) := by simp [made]
    by_cases recorded : s.records .bufferDone = true
    · obtain ⟨more, queue⟩ := State.postAll_queue_cons (r := bufferDoneRecord c e.index) (rs := rs) recorded place
      exact ⟨more, fun _ _ _ => by rw [evq]; exact queue, fun none => absurd none silent⟩
    · exact ⟨[], fun _ _ chosen => absurd chosen recorded, fun none => absurd none silent⟩
  · rw [if_neg made] at evq
    obtain ⟨more, queue, others⟩ := State.queue_of_kinds (p := (· ≠ .bufferDone)) (rs := rs) evq kinds
    exact ⟨more, fun ok event => absurd ⟨ok, event⟩ made, fun _ => ⟨queue, others⟩⟩

/-- The response to a writeback that is ERROR: WRITEBACK_FAILED stands first (R100). -/
theorem State.queue_of_writebackFailed {c : ChannelId} {index : RingIndex} {rs : List EventRecord}
    (evq : t.evq = (s.postAll (writebackFailedRecord c index :: rs)).evq)
    (recorded : s.records .writebackFailed = true) (place : s.evq.queue.length < 32) :
    ∃ more, t.evq.queue = s.evq.queue ++ { writebackFailedRecord c index with stamp := s.stamp } :: more := by
  rw [evq]
  exact State.postAll_queue_cons recorded place

end

theorem HaltReason.dataFailed_writesBack : HaltReason.dataFailed.writesBack := trivial

theorem HaltReason.writebackFailed_writesBack (index : RingIndex) : (HaltReason.writebackFailed index).writesBack := trivial

/-! ## What a failed data request or writeback leaves of the ring (R102) -/

section
variable {s t : State} {rest : List MemRequest} {reason : HaltReason} (memory : reason.writesBack)
include memory

section
variable {k : TalkId} {o : Out Talk} (halted : s.TalkHalted t k rest o reason)
include halted

/-- A HELD current is written back MEMORY with the words done, and passed. -/
theorem State.TalkHalted.of_held {d : Descriptor} (held : o.chan.ring.current = some (.held d)) :
    t.talk[k].ring.ci = o.chan.ring.ci + 1 ∧
      t.mpt.waiting[talkChannel k] = s.mpt.waiting[talkChannel k] ++ (o.requests ++
        [o.chan.ring.writebackRequest (s.talkContext k) o.chan.ring.ci
          [completionWord2 .memory o.chan.ring.position, completionWord3 s.stamp none]]) := by
  have use := ChannelCore.halt_of_held (s.talkContext k) none memory (.inl held)
  rw [halted.ring, halted.waiting, use, completionWords_none]
  exact ⟨rfl, rfl⟩

/-- A current that no fetch has brought is dropped. -/
theorem State.TalkHalted.of_unheld (unheld : o.chan.ring.current = none ∨ o.chan.ring.current = some .fetching) :
    t.talk[k].ring.ci = o.chan.ring.ci ∧ (o.requests = [] → t.mpt.waiting = s.mpt.waiting) := by
  have use := ChannelCore.halt_of_unheld (s.talkContext k) none memory unheld
  rw [halted.ring, use]
  exact ⟨rfl, fun none => halted.waiting_same none (congrArg Out.requests use)⟩

end

section
variable {k : ListenId} {o : Out Listen} (halted : s.ListenHalted t k o reason)
include halted

theorem State.ListenHalted.of_held {d : Descriptor} (held : o.chan.ring.current = some (.held d)) :
    t.listen[k].ring.ci = o.chan.ring.ci + 1 ∧
      t.mpt.waiting[listenChannel k] = s.mpt.waiting[listenChannel k] ++ (o.requests ++
        [o.chan.ring.writebackRequest (s.listenContext k) o.chan.ring.ci
          [completionWord2 .memory o.chan.ring.position, completionWord3 s.stamp
            (if o.chan.ring.position = 0 then none else o.chan.lastSequence)]]) := by
  have use : o.chan.haltUse (s.listenContext k) reason = _ :=
    ChannelCore.halt_of_held (s.listenContext k) o.chan.lastSequence memory (.inl held)
  rw [halted.ci, halted.waiting, use]
  exact ⟨rfl, rfl⟩

theorem State.ListenHalted.of_unheld (unheld : o.chan.ring.current = none ∨ o.chan.ring.current = some .fetching) :
    t.listen[k].ring.ci = o.chan.ring.ci ∧ (o.requests = [] → t.mpt.waiting = s.mpt.waiting) := by
  have use : o.chan.haltUse (s.listenContext k) reason = _ :=
    ChannelCore.halt_of_unheld (s.listenContext k) o.chan.lastSequence memory unheld
  rw [halted.ci, use]
  exact ⟨rfl, fun none => halted.waiting_same none (congrArg Out.requests use)⟩

end

end

/-! ## Data reads and writebacks of a talk channel, judged (R99 to R101, R108) -/

section
variable {ctx : ChannelContext} {t : Talk} {e : RequestEntry}

/-- The entries of the list once the data reads are stale (R101). -/
def staleReads (es : List RequestEntry) : List RequestEntry := markStale (fun e => e.purpose == .dataRead) es

theorem staleReads_eq (es : List RequestEntry) :
    staleReads es = es.map fun x => { x with stale := x.stale || x.purpose == .dataRead } := by
  refine List.map_congr_left fun x _ => ?_
  cases read : x.purpose == .dataRead <;> simp [read]

theorem staleReads_stale {es : List RequestEntry} {x : RequestEntry} (mem : x ∈ staleReads es)
    (read : x.purpose = .dataRead) : x.stale = true := by
  rw [staleReads_eq] at mem
  obtain ⟨y, -, rfl⟩ := List.mem_map.mp mem
  simpa using .inr read

section
variable (read : e.purpose = .dataRead)
include read

theorem Talk.judgeResponse_read (data : Vector Word 8) : t.judgeResponse ctx e (responseWords false data) = Out.only
    { t with staging := t.staging ++ (data.toList.take e.words).map fun w => { index := e.index, word := w } } := by
  unfold Talk.judgeResponse
  rw [read]
  rfl

theorem Talk.judgeResponse_read_error : t.judgeResponse ctx e none = t.readFailed ctx e.index := by
  unfold Talk.judgeResponse
  rw [read]

end

/-- A failed read of the current makes the later reads stale and halts the channel (R101). -/
theorem Talk.readFailed_current {index : RingIndex} (own : index = t.ring.ci) : t.readFailed ctx index =
    Talk.halt ctx .dataFailed { t with requests := staleReads t.requests } := if_pos own

/-- A failed read of the ahead stands on it until it becomes the current (R101). -/
theorem Talk.readFailed_ahead {index : RingIndex} (next : index = t.ring.ci + 1) {a : Descriptor}
    (ahead : t.ring.ahead = some (.held a)) : t.readFailed ctx index = Out.only
      { t.withAhead (.readError a) with requests := staleReads t.requests } := by
  have other : ¬ index = t.ring.ci := fun own => ringIndex_ne_succ t.ring.ci (own.symm.trans next)
  have held : heldOf t.ring.ahead = some a := heldOf_eq_some.mpr ahead
  unfold Talk.readFailed
  dsimp only
  rw [if_neg other, held]
  rfl

section
variable (write : e.purpose = .writeback)
include write

theorem Talk.judgeResponse_writeback (data : Vector Word 8) : t.judgeResponse ctx e (responseWords false data) =
    { Out.only t with
      records := if e.ok = true ∧ e.event = true then [bufferDoneRecord ctx.channel e.index] else [] } := by
  unfold Talk.judgeResponse
  rw [write]
  change (if e.ok && e.event then _ else _) = _
  by_cases made : e.ok = true ∧ e.event = true
  · rw [if_pos (e.reports_iff.mpr made), if_pos made]
    rfl
  · rw [if_neg (mt e.reports_iff.mp made), if_neg made]
    rfl

theorem Talk.judgeResponse_writeback_error : t.judgeResponse ctx e none = t.writebackFailed ctx e.index := by
  unfold Talk.judgeResponse
  rw [write]

end

theorem Talk.writebackFailed_stopped {index : RingIndex} (stopped : t.state = .closed ∨ t.state = .halted) :
    t.writebackFailed ctx index = (Out.only t).record (writebackFailedRecord ctx.channel index) :=
  if_pos (by simpa [or_comm] using stopped)

section
variable {index : RingIndex} (opened : t.state ≠ .closed) (running : t.state ≠ .halted)
include opened running

theorem Talk.writebackFailed_open : t.writebackFailed ctx index =
    ((Out.only t).record (writebackFailedRecord ctx.channel index)).andThen (Talk.halt ctx (.writebackFailed index)) :=
  if_neg (by simp [opened, running])

/-- While a burst is on the line the halt is held (R118). -/
theorem Talk.writebackFailed_busy (busy : t.onLine.isSome = true) : t.writebackFailed ctx index =
    { Out.only { t with heldHalts := t.heldHalts ++ [.writebackFailed index] } with
      records := [writebackFailedRecord ctx.channel index] } := by
  rw [Talk.writebackFailed_open opened running]
  simp only [Out.andThen, Out.record, Out.only, Talk.halt_of_onLine busy]
  rfl

theorem Talk.writebackFailed_quiet (quiet : t.onLine = none) : t.writebackFailed ctx index =
    ((Out.only t).record (writebackFailedRecord ctx.channel index)).andThen
      (Talk.enterHalted ctx (.writebackFailed index)) := by
  rw [Talk.writebackFailed_open opened running]
  exact Out.andThen_congr (Talk.halt_of_quiet quiet)

end

end

/-! ## Writebacks of a listen channel, judged (R99, R100) -/

section
variable {ctx : ChannelContext} {l : Listen} {e : RequestEntry}

section
variable (write : e.purpose = .writeback)
include write

theorem Listen.judgeResponse_writeback (data : Vector Word 8) : l.judgeResponse ctx e (responseWords false data) =
    { Out.only l with
      records := if e.ok = true ∧ e.event = true then [bufferDoneRecord ctx.channel e.index] else [] } := by
  unfold Listen.judgeResponse
  rw [write]
  change (if e.ok && e.event then _ else _) = _
  by_cases made : e.ok = true ∧ e.event = true
  · rw [if_pos (e.reports_iff.mpr made), if_pos made]
    rfl
  · rw [if_neg (mt e.reports_iff.mp made), if_neg made]
    rfl

theorem Listen.judgeResponse_writeback_error : l.judgeResponse ctx e none = l.writebackFailed ctx e.index := by
  unfold Listen.judgeResponse
  rw [write]

end

theorem Listen.writebackFailed_stopped {index : RingIndex} (stopped : l.state = .closed ∨ l.state = .halted) :
    l.writebackFailed ctx index = (Out.only l).record (writebackFailedRecord ctx.channel index) :=
  if_pos (by simpa [or_comm] using stopped)

theorem Listen.writebackFailed_open {index : RingIndex} (opened : l.state ≠ .closed) (running : l.state ≠ .halted) :
    l.writebackFailed ctx index = ((Out.only l).record (writebackFailedRecord ctx.channel index)).andThen
      (Listen.enterHalted ctx (.writebackFailed index)) :=
  if_neg (by simp [opened, running])

/-- A write that is left keeps an applied CLOSE from completing (R138). -/
theorem Listen.not_closesNow_of_writesLeft (left : l.close = .applied → writesLeft l.requests) : ¬ l.closesNow := by
  rintro ⟨applied, quiet⟩
  have writing := Listen.writing_iff.mpr (left applied)
  simp [quiet] at writing

/-- The state of a channel coming into line makes no record but CHANNEL_STARVED (R113, R125, R133). -/
theorem Talk.rejudge_kinds (t : Talk) : ∀ r ∈ (t.rejudge ctx).records, r.kind ≠ .bufferDone :=
  Talk.rejudge_makes (p := (· ≠ .bufferDone)) ctx t (by decide)

theorem Listen.rejudge_kinds : ∀ r ∈ (l.rejudge ctx).records, r.kind ≠ .bufferDone := by
  rw [Listen.rejudge_records]
  split
  · simp [event]
  · simp

end

/-! ## A writeback's response at a channel that makes no request -/

section
variable {s : State} {r : MemRequest} {rest : List MemRequest} {e : RequestEntry} {es : List RequestEntry}
  (outstanding : s.mpt.outstanding = r :: rest) (live : s.mpt.absorb = 0) (write : e.purpose = .writeback)
  (fresh : e.stale = false) (data : Vector Word 8)
include outstanding live write fresh

theorem State.exec_writeback_talk_stopped {k : TalkId} (requester : r.requester = talkChannel k)
    (oldest : s.talk[k].requests = e :: es) (stopped : s.talk[k].state = .closed ∨ s.talk[k].state = .halted) {u : State}
    (hu : u = (s.freed rest).setTalk k { s.talk[k] with requests := es }) :
    exec (.memoryResponse false data) s = .next (if e.ok = true ∧ e.event = true then
        u.post (bufferDoneRecord (talkChannel k) e.index) else u) ∧
      exec (.memoryResponse true data) s = .next (u.post (writebackFailedRecord (talkChannel k) e.index)) := by
  subst hu
  refine ⟨?_, ?_⟩
  · rw [exec_memoryResponse_talk outstanding live requester]
    have settled : ∀ o : Out Talk, o.chan = { s.talk[k] with requests := es } → Talk.settle (s.talkContext k) o = o :=
      fun o same => Talk.settle_of_stopped (by rw [same]; exact stopped)
    have response := Talk.response_of_live (ctx := s.talkContext k) oldest fresh (responseWords false data)
    rw [Talk.judgeResponse_writeback write] at response
    refine next_of_eq ?_
    by_cases made : e.ok = true ∧ e.event = true
    · rw [if_pos made, settled _ (by rfl)] at response
      rw [if_pos made]
      exact State.applyTalk_of_recorded response
    · rw [if_neg made, settled _ (by rfl)] at response
      rw [if_neg made]
      exact State.applyTalk_only response
  · rw [exec_memoryResponse_talk outstanding live requester]
    refine next_of_eq (State.applyTalk_of_recorded (((Talk.response_of_live oldest fresh _).trans ?_)))
    rw [responseWords_error, Talk.judgeResponse_writeback_error write, Talk.writebackFailed_stopped (by exact stopped)]
    exact Talk.settle_of_stopped stopped

theorem State.exec_writeback_listen_stopped {k : ListenId} (requester : r.requester = listenChannel k)
    (oldest : s.listen[k].requests = e :: es) (left : s.listen[k].close = .applied → writesLeft es)
    (stopped : s.listen[k].state = .closed ∨ s.listen[k].state = .halted) {u : State}
    (hu : u = (s.freed rest).setListen k { s.listen[k] with requests := es }) :
    exec (.memoryResponse false data) s = .next (if e.ok = true ∧ e.event = true then
        u.post (bufferDoneRecord (listenChannel k) e.index) else u) ∧
      exec (.memoryResponse true data) s = .next (u.post (writebackFailedRecord (listenChannel k) e.index)) := by
  subst hu
  have waits : ¬ ({ s.listen[k] with requests := es } : Listen).closesNow := Listen.not_closesNow_of_writesLeft left
  refine ⟨?_, ?_⟩
  · rw [exec_memoryResponse_listen outstanding live requester]
    have settled : ∀ o : Out Listen, o.chan = { s.listen[k] with requests := es } →
        Listen.settle (s.listenContext k) o = o :=
      fun o same => Listen.settle_of_stopped (by rw [same]; exact waits) (by rw [same]; exact stopped)
    have response := Listen.response_of_live (ctx := s.listenContext k) oldest fresh (responseWords false data)
    rw [Listen.judgeResponse_writeback write] at response
    refine next_of_eq ?_
    by_cases made : e.ok = true ∧ e.event = true
    · rw [if_pos made, settled _ (by rfl)] at response
      rw [if_pos made]
      exact State.applyListen_of_recorded response
    · rw [if_neg made, settled _ (by rfl)] at response
      rw [if_neg made]
      exact State.applyListen_only response
  · rw [exec_memoryResponse_listen outstanding live requester]
    refine next_of_eq (State.applyListen_of_recorded (((Listen.response_of_live oldest fresh _).trans ?_)))
    rw [responseWords_error, Listen.judgeResponse_writeback_error write, Listen.writebackFailed_stopped (by exact stopped)]
    exact Listen.settle_of_stopped waits stopped

end

/-- Settles O46: by purpose, by OK and ERROR, and by whether a burst is on the line. -/
theorem readAndWritebackResponses : Obligations.ReadAndWritebackResponses := by
  refine ⟨fun s k r rest e es data outstanding live requester oldest fresh => ?_,
    fun s k r rest e es data outstanding live requester oldest write fresh left => ?_⟩
  · have judged := State.talkJudged outstanding live requester oldest data fresh
    have halted := State.talkJudgedHalted outstanding live requester oldest data fresh
    refine ⟨fun read => ?_, fun read own quiet d current => ?_,
      fun busy opened running => ⟨fun read own => ?_, fun write => ?_⟩, fun read next a ahead => ?_,
      fun write stopped u hu =>
        State.exec_writeback_talk_stopped outstanding live write fresh data requester oldest stopped hu,
      fun write place => ?_, fun write opened running quiet => ?_⟩
    · obtain ⟨t, run, answered⟩ := judged false (Talk.judgeResponse_read read data)
      obtain ⟨ci, position, staging, bound, -⟩ := answered.settled_kept
      exact ⟨t, run, answered.settled_asks, staging, ci, position, bound, answered.outstanding,
        answered.settled_cle rfl, answered.smap⟩
    · have enters := (Talk.judgeResponse_read_error (ctx := s.talkContext k) (t := { s.talk[k] with requests := es })
        read).trans (Talk.readFailed_current (by exact own))
      rw [Talk.halt_eq_andThen (by exact quiet)] at enters
      obtain ⟨t, run, after⟩ := halted true enters
      obtain ⟨ci, waiting⟩ := after.of_held HaltReason.dataFailed_writesBack current
      exact ⟨t, run, after.state, after.haltCause, after.staging, ci, after.current, after.ahead,
        after.position, after.bound, after.stale, after.reports (Nat.zero_le 2) rfl, waiting⟩
    · have holds := (Talk.judgeResponse_read_error (ctx := s.talkContext k) (t := { s.talk[k] with requests := es })
        read).trans (Talk.readFailed_current (by exact own))
      rw [Talk.halt_of_onLine (by exact busy)] at holds
      obtain ⟨t, run, answered⟩ := judged true holds
      obtain ⟨-, -, staging, -, onLine, haltCause, heldHalts⟩ := answered.settled_kept
      refine ⟨t, run, heldHalts, onLine, haltCause, staging, fun x mem isRead => ?_⟩
      rw [answered.settled_chan] at mem
      obtain ⟨later, grown, -, kinds⟩ := (Talk.pump_pumped (s.talkContext k) (Talk.due
        { s.talk[k] with requests := staleReads es, heldHalts := s.talk[k].heldHalts ++ [.dataFailed] })).grows
      have split : x ∈ staleReads es ++ later := by
        rw [← show _ = staleReads es ++ later from grown]
        exact mem
      rcases List.mem_append.mp split with old | new
      · exact staleReads_stale old isRead
      · rcases kinds x new with ⟨fetch, -⟩ | ⟨-, stale⟩
        · simp [isRead] at fetch
        · rw [stale]
          change (s.talk[k].heldHalts ++ [HaltReason.dataFailed]).contains .dataFailed = true
          simp
    · have holds := (Talk.judgeResponse_writeback_error (ctx := s.talkContext k) (t := { s.talk[k] with requests := es })
        write).trans (Talk.writebackFailed_busy (by exact opened) (by exact running) (by exact busy))
      obtain ⟨t, run, answered⟩ := judged true holds
      obtain ⟨-, -, staging, -, onLine, haltCause, heldHalts⟩ := answered.settled_kept
      refine ⟨t, run, heldHalts, onLine, haltCause, staging, fun recorded place => ?_⟩
      exact State.queue_of_writebackFailed (answered.evq.trans (by rw [Talk.settle_records]; rfl)) recorded place
    · have stands := (Talk.judgeResponse_read_error (ctx := s.talkContext k) (t := { s.talk[k] with requests := es })
        read).trans (Talk.readFailed_ahead (by exact next) ahead)
      rw [staleReads_eq] at stands
      obtain ⟨t, run, answered⟩ := judged true stands
      obtain ⟨ci, position, staging, bound, -, haltCause, heldHalts⟩ := answered.settled_kept
      refine ⟨t, run, answered.settled_ahead rfl, haltCause, answered.settled_asks, heldHalts, staging, ci, position,
        bound, ?_⟩
      rw [answered.settled_chan]
      exact (Talk.pump_pumped (s.talkContext k) _).grows.imp fun later grown => grown.1
    · obtain ⟨t, run, answered⟩ := judged false (Talk.judgeResponse_writeback write data)
      obtain ⟨ci, -, staging, bound, -⟩ := answered.settled_kept
      obtain ⟨more, made, unmade⟩ := State.queue_of_bufferDone (answered.evq.trans (by rw [Talk.settle_records]))
        (Talk.rejudge_kinds _) place
      exact ⟨t, more, run, answered.settled_asks, ci, bound, staging, made, unmade⟩
    · have enters := (Talk.judgeResponse_writeback_error (ctx := s.talkContext k) (t := { s.talk[k] with requests := es })
        write).trans (Talk.writebackFailed_quiet (by exact opened) (by exact running) (by exact quiet))
      obtain ⟨t, run, after⟩ := halted true enters
      refine ⟨t, run, after.state, State.queue_of_writebackFailed after.evq, after.reports (Nat.one_le_ofNat) rfl,
        after.haltCause, after.staging, after.current, after.position, after.bound,
        fun d current => after.of_held (HaltReason.writebackFailed_writesBack _) current, fun unheld => ?_⟩
      obtain ⟨ci, waiting⟩ := after.of_unheld (HaltReason.writebackFailed_writesBack _) unheld
      exact ⟨ci, waiting rfl⟩
  · have judged := State.listenJudged outstanding live requester oldest data fresh
    have halted := State.listenJudgedHalted outstanding live requester oldest data fresh
    have waits : ¬ ({ s.listen[k] with requests := es } : Listen).closesNow := Listen.not_closesNow_of_writesLeft left
    refine ⟨fun stopped u hu =>
        State.exec_writeback_listen_stopped outstanding live write fresh data requester oldest left stopped hu,
      fun place => ?_, fun opened running => ?_⟩
    · obtain ⟨t, run, answered⟩ := judged false (Listen.judgeResponse_writeback write data)
      obtain ⟨ci, -, deposit, bound, -, lastSequence, -⟩ := answered.settled_kept waits
      obtain ⟨more, made, unmade⟩ := State.queue_of_bufferDone
        (answered.evq.trans (by rw [Listen.settle_records waits])) Listen.rejudge_kinds place
      exact ⟨t, more, run, answered.settled_asks waits, ci, bound, deposit, lastSequence,
        answered.settled_mailbox waits rfl, answered.outstanding, made, unmade⟩
    · obtain ⟨t, run, after⟩ := halted true ((Listen.judgeResponse_writeback_error write).trans
        (Listen.writebackFailed_open (by exact opened) (by exact running)))
      obtain ⟨ended, evq, -⟩ := after.evq
      refine ⟨t, run, after.halts rfl rfl rfl, State.queue_of_writebackFailed evq, after.reports le_rfl rfl,
        fun d current => after.of_held (HaltReason.writebackFailed_writesBack _) current, fun unheld => ?_⟩
      obtain ⟨ci, waiting⟩ := after.of_unheld (HaltReason.writebackFailed_writesBack _) unheld
      exact ⟨ci, waiting rfl⟩

end Sys2Proof.Machine

/-! The responses to a listen channel's data writes (R89, R97, R101, R132, R134, R138). -/

namespace Sys2Proof.Machine

/-! ## The requests a listen channel makes are no writebacks (R93, R131) -/

section
variable {ctx : ChannelContext}

theorem Listen.nextRequest_purpose {l : Listen} {o : Out Listen} (next : l.nextRequest ctx = some o) :
    ∀ x ∈ o.requests, x.purpose ≠ .writeback := by
  unfold Listen.nextRequest Listen.nextAhead at next
  split at next
  · cases next
  · split at next
    · cases next
      simp [Listen.withCore, Out.mapChan, ChannelCore.fetchCurrent, ChannelCore.fetch, ChannelCore.request]
    · split at next
      · dsimp only at next
        split at next
        · cases next
          simp [Listen.write, Listen.withCore, Out.mapChan, ChannelCore.request]
        · split at next <;> cases next
          simp [Listen.withCore, Out.mapChan, ChannelCore.fetchAhead, ChannelCore.fetch, ChannelCore.request]
      · split at next <;> cases next
        simp [Listen.withCore, Out.mapChan, ChannelCore.fetchAhead, ChannelCore.fetch, ChannelCore.request]

theorem Listen.pumpFor_purpose (n : Nat) (l : Listen) : ∀ x ∈ (l.pumpFor ctx n).requests, x.purpose ≠ .writeback := by
  induction n generalizing l with
  | zero =>
    rw [Listen.pumpFor]
    simp
  | succ n ih =>
    rw [Listen.pumpFor]
    split
    next o next =>
      intro x mem
      rcases List.mem_append.mp mem with first | later
      · exact Listen.nextRequest_purpose next x first
      · exact ih _ x later
    next => simp

theorem Listen.pump_purpose (l : Listen) : ∀ x ∈ (l.pump ctx).requests, x.purpose ≠ .writeback :=
  Listen.pumpFor_purpose _ l

end

/-! ## Words done and completion (R89, R97, R132) -/

section
variable {ctx : ChannelContext} {l : Listen} {e : RequestEntry} {d : Descriptor} {last : DepositWord} {n : Nat}

/-- The channel with the words of a write done (R89, R132). -/
def Listen.counted (l : Listen) (n : Nat) (last : DepositWord) : Listen :=
  { l with
    lastSequence := some last.sequence, inWrite := l.inWrite.drop n
    ring := { l.ring with position := l.ring.position + n } }

/-- The outcome of a completion, before what it may bring about (R97 steps 1 to 3). -/
def Listen.completed (ctx : ChannelContext) (d : Descriptor) (l : Listen) : Out Listen :=
  { Out.only { l with
      lastSequence := none
      requests := l.requests ++ [writebackEntry l.ring.ci .ok d.event]
      ring := { l.ring with ci := l.ring.ci + 1, current := l.ring.ahead, ahead := none, position := 0 } } with
    requests := [l.ring.writebackRequest ctx l.ring.ci (completionWords ctx l.lastSequence .ok d.length)] }

theorem Listen.complete_eq (ctx : ChannelContext) (d : Descriptor) (l : Listen) :
    { l with lastSequence := none }.withCore (l.toChannelCore.complete ctx d 0 l.lastSequence) =
      Listen.completed ctx d l := by
  have position : (if l.ring.ahead.isSome then 0 else 0) = 0 := ite_self 0
  unfold ChannelCore.complete
  rw [position]
  rfl

/-- An END buffer halts the channel as it completes (R134). -/
theorem Listen.complete_of_final (final : d.final = true) :
    l.complete ctx d = (Listen.completed ctx d l).andThen (Listen.enterHalted ctx .endBuffer) := by
  unfold Listen.complete
  dsimp only
  rw [Listen.complete_eq, if_pos final]

theorem Listen.complete_of_pending (more : d.final = false) {reason : HaltReason}
    (pending : pendingHalt l.ring.ahead = some reason) :
    l.complete ctx d = (Listen.completed ctx d l).andThen (Listen.enterHalted ctx reason) := by
  have pending' : pendingHalt (Listen.completed ctx d l).chan.ring.current = some reason := pending
  unfold Listen.complete
  dsimp only
  rw [Listen.complete_eq, if_neg (by simp [more]), pending']

theorem Listen.complete_of_none (more : d.final = false) (pending : pendingHalt l.ring.ahead = none) :
    l.complete ctx d = Listen.completed ctx d l := by
  have pending' : pendingHalt (Listen.completed ctx d l).chan.ring.current = none := pending
  unfold Listen.complete
  dsimp only
  rw [Listen.complete_eq, if_neg (by simp [more]), pending']

section
variable (write : e.purpose = .dataWrite)
include write

theorem Listen.judgeResponse_write (data : Vector Word 8) :
    l.judgeResponse ctx e (responseWords false data) = l.written ctx e.words := by
  unfold Listen.judgeResponse
  rw [write]
  rfl

theorem Listen.judgeResponse_write_error :
    l.judgeResponse ctx e none = (Out.only l).andThen (Listen.enterHalted ctx .dataFailed) := by
  unfold Listen.judgeResponse
  rw [write]
  exact Listen.enterHalted_eq_andThen l .dataFailed

end

section
variable (current : l.ring.current = some (.held d)) (newest : (l.inWrite.take n).getLast? = some last)
include current newest

theorem Listen.written_eq : l.written ctx n =
    if d.length ≤ l.ring.position + n then (l.counted n last).complete ctx d else Out.only (l.counted n last) := by
  have held : heldOf l.ring.current = some d := heldOf_eq_some.mpr current
  unfold Listen.written
  dsimp only
  rw [newest, held]
  rfl

theorem Listen.written_of_short (short : l.ring.position + n < d.length) :
    l.written ctx n = Out.only (l.counted n last) := by
  rw [Listen.written_eq current newest, if_neg (by omega)]

theorem Listen.written_of_full (full : l.ring.position + n = d.length) :
    l.written ctx n = (l.counted n last).complete ctx d := by
  rw [Listen.written_eq current newest, if_pos full.ge]

end

/-- A write that has a newest word has words. -/
theorem words_pos_of_newest {inWrite : List DepositWord} (newest : (inWrite.take n).getLast? = some last) : 0 < n := by
  rcases Nat.eq_zero_or_pos n with rfl | pos
  · simp at newest
  · exact pos

theorem writesLeft_append_writeback {es : List RequestEntry} (index : RingIndex) (result : WritebackResult)
    (event : Bool) : writesLeft (es ++ [writebackEntry index result event]) ↔ writesLeft es := by
  have none : ¬ ((writebackEntry index result event).purpose = .dataWrite) := by simp [writebackEntry]
  simp [writesLeft, or_and_right, exists_or, none]

/-- An ahead that is absent, in FETCHING or HELD brings no halt about (R97 step 4). -/
theorem pendingHalt_of_sound {ahead : Option Taken}
    (sound : ahead = none ∨ ahead = some .fetching ∨ ∃ a, ahead = some (.held a)) : pendingHalt ahead = none := by
  rcases sound with rfl | rfl | ⟨a, rfl⟩ <;> rfl

end

/-! ## The halts that a completion brings about (R97, R134) -/

section
variable {s t : State} {k : ListenId} {l : Listen} {d : Descriptor}

/-- What the halt after a completion leaves: the OK writeback, and behind it what the halt asks for. -/
theorem State.ListenHalted.of_completed {reason : HaltReason}
    (halted : s.ListenHalted t k (Listen.completed (s.listenContext k) d l) reason) {later : List MemRequest}
    (use : ∃ c, (Listen.completed (s.listenContext k) d l).chan.haltUse (s.listenContext k) reason =
      { Out.only c with requests := later } ∧ c.ring.ci = l.ring.ci + 1) :
    t.listen[k].ring.ci = l.ring.ci + 1 ∧
      t.mpt.waiting[listenChannel k] = s.mpt.waiting[listenChannel k] ++
        l.ring.writebackRequest (s.listenContext k) l.ring.ci
          (completionWords (s.listenContext k) l.lastSequence .ok d.length) :: later := by
  obtain ⟨c, use, ci⟩ := use
  rw [halted.ci, halted.waiting, use]
  exact ⟨ci, rfl⟩

end

/-- Settles O47: by the buffer's end, by what the ahead is, and by whether a CLOSE waits for the write. -/
theorem writeResponsesCountTheWordsDone : Obligations.WriteResponsesCountTheWordsDone := by
  intro s k r rest e es data d last n writeback outstanding live requester oldest write fresh current newest opened
    running done wb
  subst done
  have pos := words_pos_of_newest newest
  have judged := State.listenJudged outstanding live requester oldest data fresh
  have halted := State.listenJudgedHalted outstanding live requester oldest data fresh
  have ok := Listen.judgeResponse_write (ctx := s.listenContext k) (l := { s.listen[k] with requests := es }) write data
  have short := Listen.written_of_short (ctx := s.listenContext k) (l := { s.listen[k] with requests := es })
    (n := e.words) current newest
  have full := Listen.written_of_full (ctx := s.listenContext k) (l := { s.listen[k] with requests := es })
    (n := e.words) current newest
  have okWords : s.listen[k].ring.position + e.words = d.length →
      completionWords (s.listenContext k) (some last.sequence) .ok d.length =
        [completionWord2 .ok d.length, completionWord3 s.stamp (some last.sequence)] := fun whole =>
    completionWords_of_pos (s.listenContext k) (some last.sequence) .ok (by omega)
  generalize hl : ({ s.listen[k] with requests := es } : Listen).counted e.words last = l at short full
  have ring : l.ring = { s.listen[k].ring with position := s.listen[k].ring.position + e.words } := by rw [← hl]; rfl
  have requests : l.requests = es := by rw [← hl]; rfl
  have sequence : l.lastSequence = some last.sequence := by rw [← hl]; rfl
  have close : l.close = s.listen[k].close := by rw [← hl]; rfl
  have bound : l.bound = s.listen[k].bound := by rw [← hl]; rfl
  have done : ∀ whole : s.listen[k].ring.position + e.words = d.length,
      (l.ring.writebackRequest (s.listenContext k) l.ring.ci
        (completionWords (s.listenContext k) l.lastSequence .ok d.length)) = writeback s.listen[k].ring.ci
          [completionWord2 .ok d.length, completionWord3 s.stamp (some last.sequence)] := fun whole => by
    rw [sequence, okWords whole, wb, ring]
    rfl
  refine ⟨fun waits => ⟨fun partly => ?_, fun whole more sound => ?_⟩,
    fun applied left => ⟨fun partly => ?_, fun whole more sound => ?_⟩, fun whole cause detail later ends => ?_, ?_⟩
  · obtain ⟨t, run, answered⟩ := judged false (ok.trans (short partly))
    have stays : ¬ l.closesNow := Listen.not_closesNow_of_writesLeft fun applied => by
      rw [requests]
      exact waits.resolve_left (not_not_intro (close.symm.trans applied))
    obtain ⟨ci, position, deposit, kept, -, lastSequence, closing⟩ := answered.settled_kept stays
    refine ⟨t, run, ?_, by rw [position, Out.only_chan, ring], by rw [ci, Out.only_chan, ring],
      answered.settled_current stays (by rw [Out.only_chan, ring]; exact current),
      lastSequence.trans sequence, ?_, kept.trans bound, closing.trans close,
      answered.settled_mailbox stays rfl, answered.outstanding, answered.cle, answered.talk⟩
    · have asks := answered.settled_asks stays
      rw [← hl] at asks
      exact asks
    · rw [deposit, ← hl]
      rfl
  · obtain ⟨t, run, answered⟩ := judged false ((ok.trans (full whole)).trans
      (Listen.complete_of_none more (by rw [ring]; exact pendingHalt_of_sound sound)))
    have stays : ¬ (Listen.completed (s.listenContext k) d l).chan.closesNow :=
      Listen.not_closesNow_of_writesLeft fun applied => by
        have left : writesLeft es := waits.resolve_left (not_not_intro (close.symm.trans applied))
        exact (writesLeft_append_writeback _ _ _).mpr (requests ▸ left)
    obtain ⟨ci, position, deposit, kept, -, lastSequence, closing⟩ := answered.settled_kept stays
    have asks := answered.settled_asks stays
    have waiting := answered.waiting_own
    rw [Listen.settle_requests stays] at waiting
    refine ⟨t, (Listen.pump (s.listenContext k) (Listen.completed (s.listenContext k) d l).chan.due).requests, run,
      ?_, ?_, position, fun taken => ?_, lastSequence, ?_, kept.trans bound, closing.trans close,
      answered.settled_mailbox stays rfl, ?_, Listen.pump_purpose _⟩
    · rw [← done whole]
      subst hl
      exact asks
    · rw [ci]
      change l.ring.ci + 1 = _
      rw [ring]
    · obtain ⟨found, ahead⟩ := Option.isSome_iff_exists.mp taken
      rw [ahead]
      exact answered.settled_current stays (by change l.ring.ahead = _; rw [ring]; exact ahead)
    · rw [deposit, ← hl]
      rfl
    · rw [waiting, ← done whole]
      rfl
  · obtain ⟨t, run, answered⟩ := judged false (ok.trans (short partly))
    have now : l.closesNow := ⟨close.trans applied, by
      rw [Bool.eq_false_iff, ne_eq, Listen.writing_iff, requests]
      exact left⟩
    have use : l.lastUse (s.listenContext k) = _ := ChannelCore.close_of_used (c := l.toChannelCore) (s.listenContext k)
      l.lastSequence (d := d) (by rw [ring]; exact heldOf_eq_some.mpr current)
      (by rw [ring]; exact Nat.lt_add_left _ pos)
    refine ⟨t, run, answered.closes now, ?_, ?_⟩
    · rw [answered.closed_chan now, Out.only_chan, use]
      change l.ring.ci + 1 = _
      rw [ring]
    · rw [answered.closed_waiting now, Out.only_chan, use, sequence, wb, ring,
        completionWords_of_pos _ _ _ (Nat.lt_add_left _ pos)]
      rfl
  · obtain ⟨t, run, answered⟩ := judged false ((ok.trans (full whole)).trans
      (Listen.complete_of_none more (by rw [ring]; exact pendingHalt_of_sound sound)))
    have now : (Listen.completed (s.listenContext k) d l).chan.closesNow := ⟨close.trans applied, by
      rw [Bool.eq_false_iff, ne_eq, Listen.writing_iff]
      exact fun some => left (requests ▸ (writesLeft_append_writeback _ _ _).mp some)⟩
    have use : (Listen.completed (s.listenContext k) d l).chan.lastUse (s.listenContext k) = _ :=
      ChannelCore.close_of_unused (s.listenContext k) _ (.inr rfl)
    refine ⟨t, run, answered.closes now, ?_, ?_⟩
    · rw [answered.closed_chan now, use]
      change l.ring.ci + 1 = _
      rw [ring]
    · rw [answered.closed_waiting now, use, ← done whole]
      rfl
  · have finish : ∀ reason : HaltReason,
        l.complete (s.listenContext k) d =
          (Listen.completed (s.listenContext k) d l).andThen (Listen.enterHalted (s.listenContext k) reason) →
        reason.cause = cause → reason.detail (s.listen[k].ring.ci + 1) = detail →
        (∃ c, (Listen.completed (s.listenContext k) d l).chan.haltUse (s.listenContext k) reason =
          { Out.only c with requests := later } ∧ c.ring.ci = l.ring.ci + 1) →
        ∃ t, exec (.memoryResponse false data) s = .next t ∧ s.listenHalts t k cause ∧
          t.listen[k].ring.ci = s.listen[k].ring.ci + 1 ∧ s.reports t (haltRecord (listenChannel k) detail) ∧
          t.mpt.waiting[listenChannel k] = s.mpt.waiting[listenChannel k] ++
            writeback s.listen[k].ring.ci
              [completionWord2 .ok d.length, completionWord3 s.stamp (some last.sequence)] :: later := by
      intro reason completes isCause isDetail use
      obtain ⟨t, run, after⟩ := halted false ((ok.trans (full whole)).trans completes)
      obtain ⟨ci, waiting⟩ := after.of_completed use
      have next : l.ring.ci + 1 = s.listen[k].ring.ci + 1 := by rw [ring]
      refine ⟨t, run, isCause ▸ after.halts bound close rfl, ci.trans next, after.reports (Nat.zero_le 1) ?_, ?_⟩
      · rw [← isDetail, ← next]
        rfl
      · rw [waiting, done whole]
    rcases ends with ⟨final, rfl, rfl, rfl⟩ | ⟨more, ⟨b, bad⟩, rfl, rfl, rfl⟩ | ⟨more, failed, rfl, rfl, rfl⟩
    · exact finish .endBuffer (Listen.complete_of_final final) rfl rfl ⟨_, rfl, rfl⟩
    · refine finish .badDescriptor (Listen.complete_of_pending more (by rw [ring]; exact congrArg pendingHalt bad))
        rfl rfl
        ⟨((Listen.completed (s.listenContext k) d l).chan.haltUse (s.listenContext k) .badDescriptor).chan, ?_, rfl⟩
      have use : (Listen.completed (s.listenContext k) d l).chan.haltUse (s.listenContext k) .badDescriptor = _ :=
        ChannelCore.halt_bad _ _
      rw [use, wb, completionWords_none]
      subst hl
      rfl
    · exact finish .fetchFailed (Listen.complete_of_pending more (by rw [ring]; exact congrArg pendingHalt failed))
        rfl rfl ⟨_, rfl, rfl⟩
  · obtain ⟨t, run, after⟩ := halted true (Listen.judgeResponse_write_error write)
    obtain ⟨ci, waiting⟩ := after.of_held HaltReason.dataFailed_writesBack current
    exact ⟨t, run, after.halts rfl rfl rfl, ci, after.reports (Nat.zero_le 1) rfl, by rw [waiting, wb]; rfl⟩

end Sys2Proof.Machine

/-! The requests a listen channel makes, one after another (R93, R98, R131). -/

namespace Sys2Proof.Machine

/-! ## The pump, request by request -/

section
variable {ctx : ChannelContext}

theorem Listen.nextRequest_of_full {l : Listen} (full : 16 ≤ l.requests.length) : l.nextRequest ctx = none :=
  if_pos (by simp [Config.requestLimit, full])

/-- A request adds one entry to the list (R98). -/
theorem Listen.nextRequest_length {l : Listen} {o : Out Listen} (h : l.nextRequest ctx = some o) :
    o.chan.requests.length = l.requests.length + o.requests.length := by
  obtain ⟨later, grown, count, -⟩ := (Listen.nextRequest_pumped h).grows
  rw [grown, List.length_append, count]

/-- Every request is one request. -/
theorem Listen.nextRequest_one {l : Listen} {o : Out Listen} (h : l.nextRequest ctx = some o) :
    o.requests.length = 1 := by
  unfold Listen.nextRequest Listen.nextAhead at h
  split at h
  · cases h
  · split at h
    · cases h
      rfl
    · split at h
      · dsimp only at h
        split at h
        · cases h
          rfl
        · split at h <;> cases h
          rfl
      · split at h <;> cases h
        rfl

/-- The list limit of R98 bounds the pump: more fuel than it leaves places changes nothing. -/
theorem Listen.pumpFor_succ (n : Nat) (l : Listen) (enough : 16 ≤ l.requests.length + n) :
    l.pumpFor ctx (n + 1) = l.pumpFor ctx n := by
  induction n generalizing l with
  | zero => simp [Listen.pumpFor, Listen.nextRequest_of_full enough]
  | succ n ih =>
    rw [Listen.pumpFor, Listen.pumpFor]
    cases next : l.nextRequest ctx with
    | none => rfl
    | some o =>
      have more := Listen.nextRequest_length next
      rw [Listen.nextRequest_one next] at more
      have same := ih o.chan (by omega)
      simp only [Out.andThen, same]

/-- The next request, and then all the others (R93, R98, R131). -/
theorem Listen.pump_of_next {l : Listen} {o : Out Listen} (next : l.nextRequest ctx = some o) :
    l.pump ctx = { Listen.pump ctx o.chan with requests := o.requests ++ (Listen.pump ctx o.chan).requests } := by
  have pumped := Listen.nextRequest_pumped next
  have more := Listen.nextRequest_length next
  rw [Listen.nextRequest_one next] at more
  have fuel : Listen.pumpFor ctx 15 o.chan = Listen.pump ctx o.chan :=
    (Listen.pumpFor_succ 15 o.chan (by omega)).symm
  have first : l.pump ctx = o.andThen (Listen.pump ctx) := by
    rw [Listen.pump, Config.requestLimit, Listen.pumpFor, next]
    simp only [Out.andThen, fuel]
  rw [first]
  simp only [Out.andThen, pumped.records, pumped.release, pumped.done, List.nil_append, Bool.false_or]

end

/-! ## When a request is called for (R93, R98, R131) -/

section
variable {l : Listen}

theorem Listen.walks_iff : l.walks = true ↔ l.state = .waiting ∨ l.state = .receiving ∨ l.state = .starved := by
  simp [Listen.walks, or_assoc]

theorem Listen.mayAsk_iff : l.mayAsk ↔ ¬ (!l.walks || Config.requestLimit ≤ l.requests.length) = true := by
  have places : decide (Config.requestLimit ≤ l.requests.length) = false ↔ l.requests.length < 16 :=
    decide_eq_false_iff_not.trans Nat.not_le
  rw [Listen.mayAsk, ← Listen.walks_iff, ← places]
  simp

theorem Listen.writeTarget_eq_some {d : Descriptor} {index : RingIndex} {offset : Nat} :
    l.writeTarget = some (d, index, offset) ↔
      l.writePoint = some (index, offset) ∧ l.ring.holds d index ∧ offset < d.length := by
  rw [Ring.holds_iff]
  unfold Listen.writeTarget
  split
  next point => simp [point]
  next i j point =>
    rw [point]
    dsimp only
    split
    next e named =>
      split
      next inside => grind
      next outside => grind
    next unnamed => grind

theorem Listen.callsWrite_iff {d : Descriptor} {index : RingIndex} {offset n : Nat} :
    l.callsWrite d index offset n ↔ l.writeTarget = some (d, index, offset) ∧ 0 < n ∧
      n = min Config.burstWords (min l.waiting.length (d.length - offset)) := by
  rw [Listen.writeTarget_eq_some]
  have words : offset < d.length → n = min 8 (min l.waiting.length (d.length - offset)) →
      (l.waiting ≠ [] ↔ 0 < n) := fun inside size => by
    rw [← List.length_pos_iff]
    omega
  constructor
  · rintro ⟨point, held, inside, waits, size⟩
    exact ⟨⟨point, held, inside⟩, (words inside size).mp waits, size⟩
  · rintro ⟨⟨point, held, inside⟩, some, size⟩
    exact ⟨point, held, inside, (words inside size).mpr some, size⟩

theorem Listen.callsAhead_iff :
    l.callsAhead ↔ (l.wantsAhead && decide (l.unfilled ≤ Config.bufferWords)) = true := by
  have covered : ∀ d, l.ring.current = some (.held d) →
      (l.unfilled ≤ Config.bufferWords ↔ d.length ≤ l.ring.position + l.inWrite.length + l.waiting.length + 16) := by
    intro d current
    have left : l.unfilled = d.length - l.ring.position - l.inWrite.length - l.waiting.length := by
      rw [Listen.unfilled, heldOf_eq_some.mpr current]
    rw [left, Config.bufferWords]
    omega
  simp only [Bool.and_eq_true, ChannelCore.wantsAhead_iff, decide_eq_true_eq]
  constructor
  · rintro ⟨d, current, noAhead, second, few⟩
    exact ⟨⟨d, current, noAhead, second⟩, (covered d current).mpr few⟩
  · rintro ⟨⟨d, current, noAhead, second⟩, few⟩
    exact ⟨d, current, noAhead, second, (covered d current).mp few⟩

/-- Where the write point goes (R131). -/
theorem Listen.nextWritePoint_eq (d : Descriptor) (index : RingIndex) (offset : Nat) :
    l.nextWritePoint d index offset =
      if offset < d.length ∨ d.final = true then some (index, offset)
      else if index = l.ring.ci ∧ (heldOf l.ring.ahead).isSome = true then some (index + 1, 0)
      else none :=
  if_congr (by simp) rfl (if_congr (by simp) rfl rfl)

/-! ## The next request, by what is called for -/

variable {ctx : ChannelContext}

theorem Listen.nextRequest_of_not_mayAsk (h : ¬ l.mayAsk) : l.nextRequest ctx = none :=
  if_pos (not_not.mp (mt Listen.mayAsk_iff.mpr h))

theorem Listen.nextRequest_of_callsCurrent (may : l.mayAsk) (calls : l.callsCurrent) :
    l.nextRequest ctx = some (l.withCore (l.toChannelCore.fetchCurrent ctx)) := by
  unfold Listen.nextRequest
  rw [if_neg (Listen.mayAsk_iff.mp may), if_pos (ChannelCore.wantsCurrent_iff.mpr calls)]

theorem Listen.nextAhead_of_callsAhead (calls : l.callsAhead) :
    l.nextAhead ctx = some (l.withCore (l.toChannelCore.fetchAhead ctx)) :=
  if_pos (Listen.callsAhead_iff.mp calls)

theorem Listen.nextAhead_of_not (calls : ¬ l.callsAhead) : l.nextAhead ctx = none :=
  if_neg (mt Listen.callsAhead_iff.mpr calls)

variable (may : l.mayAsk) (other : ¬ l.callsCurrent)
include may other

theorem Listen.nextRequest_of_callsWrite {d : Descriptor} {index : RingIndex} {offset n : Nat}
    (calls : l.callsWrite d index offset n) : l.nextRequest ctx = some (l.write ctx d index offset n) := by
  obtain ⟨target, words, rfl⟩ := Listen.callsWrite_iff.mp calls
  unfold Listen.nextRequest
  rw [if_neg (Listen.mayAsk_iff.mp may), if_neg (mt ChannelCore.wantsCurrent_iff.mp other), target]
  exact if_pos words

theorem Listen.nextRequest_of_no_write (none : ∀ d index offset n, ¬ l.callsWrite d index offset n) :
    l.nextRequest ctx = l.nextAhead ctx := by
  unfold Listen.nextRequest
  rw [if_neg (Listen.mayAsk_iff.mp may), if_neg (mt ChannelCore.wantsCurrent_iff.mp other)]
  split
  next d index offset target =>
    exact if_neg fun words => none d index offset _ (Listen.callsWrite_iff.mpr ⟨target, words, rfl⟩)
  next => rfl

end

theorem Listen.write_eq (ctx : ChannelContext) (l : Listen) (d : Descriptor) (index : RingIndex) (offset n : Nat) :
    l.write ctx d index offset n =
      { chan := { l with
          inWrite := l.inWrite ++ l.waiting.take n, waiting := l.waiting.drop n
          writePoint :=
            if offset + n < d.length ∨ d.final = true then some (index, offset + n)
            else if index = l.ring.ci ∧ (heldOf l.ring.ahead).isSome = true then some (index + 1, 0)
            else none
          requests := l.requests ++ [{ purpose := .dataWrite, stale := false, index, words := n, ok := false,
                                       event := false }] }
        requests := [{ purpose := .dataWrite, address := d.address + BitVec.ofNat 32 (4 * offset), words := n
                       requester := ctx.channel, data := (l.waiting.take n).map DepositWord.word }]
        records := [], release := false, done := false } := by
  rw [← Listen.nextWritePoint_eq]
  rfl

end Sys2Proof.Machine

/-! A burst received in a slot where the station does not transmit (R16, R18, R20), and what its words do at the listen
channels (R127 to R131). -/

namespace Sys2Proof.Machine

/-! ## LNE hears a burst (R127) -/

section
variable {s u : State} {slot : Slot} {made : List EventRecord}

theorem State.hears_of_none (listen : u.listen = s.listen) (evq : u.evq = (s.postAll made).evq)
    (waiting : ∀ k : ListenId, u.mpt.waiting[listenChannel k] = s.mpt.waiting[listenChannel k]) :
    s.hears u slot none made :=
  ⟨fun _ => ⟨listen, evq, waiting⟩, nofun⟩

/-- A burst handed to LNE reaches every listen channel as `Listen.take`, behind the records made before (R127). -/
theorem State.hears_handBurst {b : Burst} (listen : u.listen = s.listen) (evq : u.evq = (s.postAll made).evq)
    (waiting : ∀ k : ListenId, u.mpt.waiting[listenChannel k] = s.mpt.waiting[listenChannel k])
    (start : u.stc.start = s.stc.start) (stamp : u.stamp = s.stamp) :
    s.hears (u.handBurst slot b) slot (some b) made := by
  refine ⟨nofun, fun heard same o each => ?_⟩
  cases same
  have seen : ∀ k, o k = Listen.take (u.listenContext k) slot b u.listen[k] := fun k => by
    rw [each, listen, State.listenContext, stamp]
  refine ⟨fun k => ⟨?_, ?_⟩, ?_⟩
  · rw [State.handBurst, State.eachListen_get, seen]
  · rw [State.handBurst, State.eachListen_waiting, seen, waiting]
  · rw [State.handBurst, State.eachListen_evq, State.postAll_append,
      List.flatMap_congr (g := fun k => (o k).records) fun k _ => by rw [seen]]
    exact State.postAll_evq_congr evq (by rw [State.postAll_stc, start])
      (by rw [stamp, State.stamp, State.stamp, State.postAll_rtm]) _

end

/-! ## The bits of a received burst (R2, R16, R172) -/

section
variable {l : LineBurst}

theorem LineBurst.malformed_iff : l.malformed = true ↔
    8 < l.count ∨ (l.header.getLsbD 8 = false ∧ l.count ≠ 0) ∨ l.header.extractLsb' 9 8 = 0 := by
  have fill : l.burst.kind = .fill ↔ l.header.getLsbD 8 = false := by
    rw [LineBurst.burst]
    cases l.header.getLsbD 8 <;> simp
  rw [LineBurst.malformed, Bool.or_eq_true, Bool.or_eq_true, Bool.and_eq_true, decide_eq_true_eq, beq_iff_eq,
    bne_iff_ne, beq_iff_eq, fill, or_assoc]
  rfl

theorem length_flatMap_bitsOf (words : List Word) : (words.flatMap bitsOf).length = 32 * words.length := by
  induction words with
  | nil => rfl
  | cons w words ih => simp only [List.flatMap_cons, List.length_append, length_bitsOf, ih, List.length_cons]; omega

theorem LineBurst.length_slotBits : l.slotBits.length = 320 := by
  simp only [LineBurst.slotBits, List.length_append, length_bitsOf, length_flatMap_bitsOf, Vector.length_toList]

theorem LineBurst.length_bits {n : Nat} (few : n ≤ 8) : (l.bits n).length = 39 + 32 * n := by
  simp only [LineBurst.bits, LineBurst.firstWords, List.length_append, length_bitsOf, length_flatMap_bitsOf,
    List.length_take, Vector.length_toList]
  omega

theorem LineBurst.length_received : l.received.length = if l.malformed then 320 else 39 + 32 * l.count := by
  unfold LineBurst.received
  split
  next => exact LineBurst.length_slotBits
  next formed =>
    have few : ¬ 8 < l.count := fun many => formed (LineBurst.malformed_iff.mpr (.inl many))
    exact LineBurst.length_bits (by omega)

/-- A valid burst is the one the bits carry, and its header is well formed (R16). -/
theorem LineBurst.valid_eq_some {b : Burst} (valid : l.valid = some b) : l.malformed = false ∧ b = l.burst := by
  unfold LineBurst.valid at valid
  split at valid
  next sound =>
    cases valid
    simp only [Bool.and_eq_true, Bool.not_eq_true'] at sound
    exact ⟨sound.1, rfl⟩
  next => cases valid

theorem LineBurst.length_received_of_valid {b : Burst} (valid : l.valid = some b) :
    l.received.length = 39 + 32 * b.words.length := by
  obtain ⟨formed, rfl⟩ := LineBurst.valid_eq_some valid
  have few : ¬ 8 < l.count := fun many => by simp [LineBurst.malformed_iff.mpr (.inl many)] at formed
  have words : l.burst.words.length = l.count := by
    simp only [LineBurst.burst, LineBurst.firstWords, List.length_take, Vector.length_toList]
    omega
  rw [LineBurst.length_received, formed, words]
  rfl

end

/-! ## The end of a received burst (R16, R18, R20) -/

/-- LIF has read bits of a slot to the last, and the slot is observed (R16, R20). -/
def State.slotRead (s : State) (slot : Slot) (bits : List Bool) (o : Observation) : State :=
  ((s.elementRead (slotTime slot.val) bits).reach (slotTime slot.val + bits.length)).observe slot o

theorem State.slotRead_eq {s : State} {slot : Slot} {bits : List Bool} {o : Observation} {ends : Nat}
    (now : s.now ≤ ends) (last : 160 + 320 * slot.val + bits.length = ends) : s.slotRead slot bits o = { s with
      smap := { s.smap with observations := s.smap.observations.set slot (some o) }
      rtm := { s.rtm with elapsed := some ends }
      lif := { s.lif with
        activity := .idle, lastDominant := s.dominantAfter (160 + 320 * slot.val) bits, watchesFrom := ends } } := by
  subst last
  rw [State.slotRead, State.reach_later (by exact now)]
  rfl

theorem State.burstCheckError_of_inLink {s : State} (link : s.inLink = true) : s.burstCheckError = { s with
    stc := { s.stc with windowErrors := min 255 (s.stc.windowErrors + 1) }
    lif := { s.lif with burstCheck := min 65535 (s.lif.burstCheck + 1) } } :=
  if_pos link

section
variable {s : State} {slot : Slot} {l : LineBurst} (receiving : s.lif.activity = .receiving slot)
include receiving

theorem State.endHeardBurst_of_valid {b : Burst} (valid : l.valid = some b) : s.endHeardBurst l =
    (s.slotRead slot l.received (.valid b.owner b.tag)).handBurst slot b := by
  unfold State.endHeardBurst
  rw [receiving]
  dsimp only
  rw [valid]
  rfl

theorem State.endHeardBurst_of_bad (bad : l.valid = none) : s.endHeardBurst l =
    (s.slotRead slot l.received .bad).burstCheckError := by
  unfold State.endHeardBurst
  rw [receiving]
  dsimp only
  rw [bad]
  rfl

end

/-! ## A burst's words at one listen channel (R129, R130) -/

section
variable {ctx : ChannelContext} {slot : Slot} {b : Burst} {l : Listen}

theorem Listen.take_of_unreached (h : l.bound ≠ some slot ∨ l.tag ≠ some b.tag ∨
    (l.state ≠ .receiving ∧ l.state ≠ .starved)) : Listen.take ctx slot b l = Out.only l :=
  if_neg (by tauto)

/-- The channel with the sequence that it expects after a burst (R128). -/
def Listen.expecting (b : Burst) (l : Listen) : Listen :=
  { l with expected := some (b.sequence + 1) }

/-- The channel as it takes every word of a burst, before the writes (R129, R130). -/
def Listen.filled (b : Burst) (l : Listen) : Listen :=
  { l with
    expected := some (b.sequence + 1), episode := none
    waiting := l.waiting ++ b.words.map fun w => { word := w, sequence := b.sequence }
    wordsReceived := l.wordsReceived + BitVec.ofNat 32 b.words.length }

theorem Listen.accept_chan : (Listen.accept ctx b (l.expecting b)).chan = (Listen.pump ctx (l.filled b)).chan := by
  rw [Listen.accept, Out.andThen_chan, Out.mapChan_chan, Listen.endEpisode_chan]
  rfl

theorem Listen.accept_requests :
    (Listen.accept ctx b (l.expecting b)).requests = (Listen.pump ctx (l.filled b)).requests := by
  have none : (Listen.endEpisode ctx (l.expecting b)).requests = [] := Listen.endEpisode_requests
  simp only [Listen.accept, Out.andThen, Out.mapChan, none, List.nil_append, Listen.endEpisode_chan]
  rfl

theorem Listen.accept_done : (Listen.accept ctx b l).done = false := by
  simp [Listen.accept, Out.andThen, Out.mapChan]

theorem Listen.keep_done : (Listen.keep ctx slot b l).done = false := by
  rcases Listen.keep_cases ctx slot b l with nothing | kept | dropped
  · rw [nothing, Out.only_done]
  · rw [kept, Listen.accept_done]
  · rw [dropped, Out.only_done]

/-- A burst completes no command. -/
theorem Listen.take_done : (Listen.take ctx slot b l).done = false := by
  unfold Listen.take
  split
  next =>
    change (false || (Listen.keep ctx slot b (l.expecting b)).done) = false
    rw [Listen.keep_done]
    rfl
  next => rfl

section
variable (data : b.kind = .data) (words : b.words ≠ [])
include data words

theorem Listen.keep_of_room (receiving : l.state = .receiving)
    (room : l.inWrite.length + l.waiting.length + b.words.length ≤ 16) :
    l.keep ctx slot b = l.accept ctx b := by
  have fits : b.words.length ≤ l.room := by
    rw [Listen.room, Config.bufferWords]
    omega
  rw [Listen.keep, if_neg (by simp [data, words]), if_pos (by simp [receiving, fits])]

theorem Listen.keep_of_no_room (full : (l.state = .receiving ∧
      16 < l.inWrite.length + l.waiting.length + b.words.length) ∨ l.state = .starved) :
    l.keep ctx slot b = Out.only (l.drop slot b) := by
  have some : 0 < b.words.length := List.length_pos_iff.mpr words
  rw [Listen.keep, if_neg (by simp [data, words]), if_neg]
  rcases full with ⟨-, full⟩ | starved
  · have short : ¬ b.words.length ≤ l.room := by
      rw [Listen.room, Config.bufferWords]
      omega
    simp [short]
  · simp [starved]

end

section
variable (bound : l.bound = some slot) (tag : l.tag = some b.tag) (data : b.kind = .data) (words : b.words ≠ [])
include bound tag data words

theorem Listen.take_of_room (receiving : l.state = .receiving)
    (room : l.inWrite.length + l.waiting.length + b.words.length ≤ 16) :
    (Listen.take ctx slot b l).chan = (Listen.pump ctx (l.filled b)).chan ∧
      (Listen.take ctx slot b l).requests = (Listen.pump ctx (l.filled b)).requests := by
  have kept : Listen.keep ctx slot b (l.expecting b) = Listen.accept ctx b (l.expecting b) :=
    Listen.keep_of_room data words receiving room
  rw [Listen.take_of_reached bound tag (.inl receiving)]
  refine ⟨?_, ?_⟩
  · rw [← Listen.accept_chan, ← kept]
    rfl
  · rw [← Listen.accept_requests, ← kept]
    rfl

theorem Listen.take_of_no_room (full : (l.state = .receiving ∧
      16 < l.inWrite.length + l.waiting.length + b.words.length) ∨ l.state = .starved) :
    (Listen.take ctx slot b l).chan = (l.expecting b).drop slot b := by
  have dropped : Listen.keep ctx slot b (l.expecting b) = Out.only ((l.expecting b).drop slot b) :=
    Listen.keep_of_no_room data words full
  rw [Listen.take_of_reached bound tag (full.imp And.left id), Out.andThen_chan]
  exact congrArg Out.chan dropped

end

end

/-! ## The end of a valid burst (R16, R129, R130) -/

section
variable {s : State} {slot : Slot} {b : Burst}

@[simp] theorem State.handBurst_stc : (s.handBurst slot b).stc = s.stc := State.eachListen_stc ..
@[simp] theorem State.handBurst_rtm : (s.handBurst slot b).rtm = s.rtm := State.eachListen_rtm ..
@[simp] theorem State.handBurst_lif : (s.handBurst slot b).lif = s.lif := State.eachListen_lif ..
@[simp] theorem State.handBurst_smap : (s.handBurst slot b).smap = s.smap := State.eachListen_smap ..
@[simp] theorem State.handBurst_cle : (s.handBurst slot b).cle = s.cle := State.eachListen_cle ..
@[simp] theorem State.handBurst_talk : (s.handBurst slot b).talk = s.talk := State.eachListen_talk ..
@[simp] theorem State.handBurst_boundary : (s.handBurst slot b).boundary = s.boundary := State.eachListen_boundary ..

theorem State.handBurst_listen (k : ListenId) :
    (s.handBurst slot b).listen[k] = (Listen.take (s.listenContext k) slot b s.listen[k]).chan := by
  rw [State.handBurst, State.eachListen_get]

theorem State.handBurst_waiting (k : ListenId) : (s.handBurst slot b).mpt.waiting[listenChannel k] =
    s.mpt.waiting[listenChannel k] ++ (Listen.take (s.listenContext k) slot b s.listen[k]).requests := by
  rw [State.handBurst, State.eachListen_waiting]

@[simp] theorem State.handBurst_mailbox : (s.handBurst slot b).hpt.mailbox = s.hpt.mailbox := by
  rw [State.handBurst, State.eachListen_mailbox, if_neg]
  rintro ⟨k, done⟩
  rw [Listen.take_done] at done
  cases done

/-- A channel that the burst does not reach stays as it is (R127). -/
theorem State.handBurst_listen_of_unreached {k : ListenId} (h : s.listen[k].bound ≠ some slot ∨
    s.listen[k].tag ≠ some b.tag ∨ (s.listen[k].state ≠ .receiving ∧ s.listen[k].state ≠ .starved)) :
    (s.handBurst slot b).listen[k] = s.listen[k] := by
  rw [State.handBurst_listen, Listen.take_of_unreached h, Out.only_chan]

section
variable {k : ListenId} (bound : s.listen[k].bound = some slot) (tag : s.listen[k].tag = some b.tag)
  (data : b.kind = .data) (words : b.words ≠ [])
include bound tag data words

/-- A channel with room takes every word and makes the writes then called for (R129, R131). -/
theorem State.handBurst_asks (state : s.listen[k].state = .receiving)
    (room : s.listen[k].inWrite.length + s.listen[k].waiting.length + b.words.length ≤ 16) :
    s.listenAsks (s.handBurst slot b) k [] (s.listen[k].filled b) := by
  obtain ⟨chan, requests⟩ := Listen.take_of_room (ctx := s.listenContext k) bound tag data words state room
  refine ⟨_, rfl, ?_, ?_⟩
  · rw [State.handBurst_listen, chan]
    rfl
  · rw [State.handBurst_waiting, requests, List.append_nil]
    rfl

/-- A channel that starves or has no room drops every word (R130). -/
theorem State.handBurst_dropped (full : (s.listen[k].state = .receiving ∧
      16 < s.listen[k].inWrite.length + s.listen[k].waiting.length + b.words.length) ∨
      s.listen[k].state = .starved) :
    (s.handBurst slot b).listen[k] = (s.listen[k].expecting b).drop slot b := by
  rw [State.handBurst_listen]
  exact Listen.take_of_no_room bound tag data words full

end

/-- The words that a channel has made its own reach the deposit behind those that wait (R129). -/
theorem State.listenAsks.deposit {t : State} {k : ListenId} {l : Listen}
    (asks : s.listenAsks t k [] (l.filled b)) :
    t.listen[k].wordsReceived = l.wordsReceived + BitVec.ofNat 32 b.words.length ∧
      t.listen[k].inWrite ++ t.listen[k].waiting =
        l.inWrite ++ l.waiting ++ b.words.map (fun w => { word := w, sequence := b.sequence }) ∧
      t.listen[k].episode = none ∧ t.listen[k].expected = some (b.sequence + 1) := by
  obtain ⟨u, pumped, chan, -⟩ := asks
  have kept := Listen.pump_pumped { channel := listenChannel k, stamp := s.stamp } (l.filled b)
  rw [← pumped] at kept
  rw [chan]
  refine ⟨by rw [kept.chan]; rfl, ?_, by rw [kept.chan]; rfl, by rw [kept.chan]; rfl⟩
  rw [kept.deposit, List.append_assoc]
  rfl

end

section
variable {s : State} {slot : Slot} {l : LineBurst} (receiving : s.lif.activity = .receiving slot)
  (now : s.now ≤ 199 + 320 * slot.val)
include now

include receiving in
theorem State.burstReceived_bad (link : s.inLink = true) (bad : l.valid = none) {ends : Nat}
    (last : ends = if l.malformed then 480 + 320 * slot.val else 199 + 320 * slot.val + 32 * l.count) :
    s.endHeardBurst l = { s with
      smap := { s.smap with observations := s.smap.observations.set slot (some .bad) }
      stc := { s.stc with windowErrors := min 255 (s.stc.windowErrors + 1) }
      rtm := { s.rtm with elapsed := some ends }
      lif := { s.lif with
        activity := .idle, watchesFrom := ends
        lastDominant := s.dominantAfter (160 + 320 * slot.val) l.received
        burstCheck := min 65535 (s.lif.burstCheck + 1) } } := by
  have length : 160 + 320 * slot.val + l.received.length = ends := by
    rw [last, LineBurst.length_received]
    split <;> omega
  have later : s.now ≤ ends := by
    rw [last]
    split <;> omega
  rw [State.endHeardBurst_of_bad receiving bad, State.burstCheckError_of_inLink (by exact link),
    State.slotRead_eq later length]

/-- What the end of a valid burst changes but the listen channels (R16, R20). -/
theorem State.slotRead_of_valid {b : Burst} (valid : l.valid = some b) (o : Observation) :
    s.slotRead slot l.received o = { s with
      smap := { s.smap with observations := s.smap.observations.set slot (some o) }
      rtm := { s.rtm with elapsed := some (199 + 320 * slot.val + 32 * b.words.length) }
      lif := { s.lif with
        activity := .idle, lastDominant := s.dominantAfter (160 + 320 * slot.val) l.received
        watchesFrom := 199 + 320 * slot.val + 32 * b.words.length } } := by
  have length := LineBurst.length_received_of_valid valid
  exact State.slotRead_eq (by omega) (by omega)

end

/-- Settles O30: a burst's words reach the listeners that have room, and the data writes follow. -/
theorem receivedBurstsReachTheMapAndTheListeners : Obligations.ReceivedBurstsReachTheMapAndTheListeners := by
  refine ⟨fun ctx l => ⟨Listen.pump_of_none, fun o next => Listen.pump_of_next next, Listen.nextRequest_of_not_mayAsk,
      fun may calls => Listen.nextRequest_of_callsCurrent may calls, fun may other => ⟨fun d index offset n calls => ?_,
        fun none => ⟨fun calls => ?_, fun calls => ?_⟩⟩⟩,
    fun s slot l b receiving valid => ?_, fun s slot l receiving link now => ⟨fun bad ends last => ?_,
      LineBurst.malformed_iff, fun b valid => ?_⟩⟩
  · rw [Listen.nextRequest_of_callsWrite may other calls, Listen.write_eq]
  · rw [Listen.nextRequest_of_no_write may other none]
    exact Listen.nextAhead_of_callsAhead calls
  · rw [Listen.nextRequest_of_no_write may other none]
    exact Listen.nextAhead_of_not calls
  · refine ⟨_, next_of_eq (State.endHeardBurst_of_valid receiving valid), ?_⟩
    exact State.hears_handBurst rfl rfl (fun _ => rfl) rfl rfl
  · exact next_of_eq (State.burstReceived_bad receiving now link bad last)
  · obtain ⟨u, is⟩ : ∃ u, u = s.slotRead slot l.received (.valid b.owner b.tag) := ⟨_, rfl⟩
    have read := is.trans (State.slotRead_of_valid now valid _)
    have done := State.endHeardBurst_of_valid receiving valid
    rw [← is] at done
    have listen : u.listen = s.listen := by rw [read]
    have waiting : u.mpt = s.mpt := by rw [read]
    have stamp : u.stamp = s.stamp := by rw [read]; rfl
    refine ⟨_, next_of_eq done, ?_⟩
    simp only [State.handBurst_smap, State.handBurst_lif, State.handBurst_rtm, State.handBurst_stc, State.handBurst_cle,
      State.handBurst_talk, State.handBurst_mailbox, State.handBurst_boundary]
    refine ⟨by rw [read], by rw [read], by rw [read], by rw [read], by rw [read], by rw [read], by rw [read],
      by rw [read], fun k => ?_⟩
    rw [← listen]
    refine ⟨State.handBurst_listen_of_unreached, fun bound tag data words => ⟨fun state room => ?_,
      State.handBurst_dropped bound tag data words⟩⟩
    have asks := State.handBurst_asks bound tag data words state room
    obtain ⟨received, deposit, episode, expected⟩ := asks.deposit
    refine ⟨received, deposit, episode, expected, ?_⟩
    rw [State.listenAsks, ← stamp, ← waiting]
    exact asks

end Sys2Proof.Machine

/-! LIF's sent report at a talk channel (R89, R97, R112 to R114, R118), and what the requests that follow it can be. -/

namespace Sys2Proof.Machine

/-! ## What a pump asks for (R93, R108) -/

section
variable {ctx : ChannelContext} {t : Talk} {o : Out Talk}

/-- The three requests of a talk channel. -/
theorem Talk.nextRequest_cases (next : t.nextRequest ctx = some o) :
    (t.callsCurrent ∧ o = t.withCore (t.toChannelCore.fetchCurrent ctx)) ∨
    (∃ d index offset n, t.callsRead d index offset n ∧ o = t.read ctx d index offset n) ∨
    (t.callsAhead ∧ o = t.withCore (t.toChannelCore.fetchAhead ctx)) := by
  by_cases may : t.mayAsk
  case neg =>
    rw [Talk.nextRequest_of_not_mayAsk may] at next
    cases next
  by_cases current : t.callsCurrent
  · rw [Talk.nextRequest_of_callsCurrent may current] at next
    cases next
    exact .inl ⟨current, rfl⟩
  by_cases read : ∃ d index offset n, t.callsRead d index offset n
  · obtain ⟨d, index, offset, n, calls⟩ := read
    rw [Talk.nextRequest_of_callsRead may current calls] at next
    cases next
    exact .inr (.inl ⟨d, index, offset, n, calls, rfl⟩)
  rw [Talk.nextRequest_of_no_read may current fun d index offset n calls => read ⟨d, index, offset, n, calls⟩] at next
  by_cases ahead : t.callsAhead
  · rw [Talk.nextAhead_of_callsAhead ahead] at next
    cases next
    exact .inr (.inr ⟨ahead, rfl⟩)
  · rw [Talk.nextAhead_of_not ahead] at next
    cases next

variable (ctx t)

theorem Talk.pumpFor_purpose (n : Nat) : ∀ x ∈ (t.pumpFor ctx n).requests, x.purpose ≠ .writeback := by
  induction n generalizing t with
  | zero => exact fun x mem => absurd mem List.not_mem_nil
  | succ n ih =>
    rw [Talk.pumpFor]
    split
    next o next =>
      intro x mem
      rcases List.mem_append.mp mem with first | later
      · rcases Talk.nextRequest_cases next with ⟨-, rfl⟩ | ⟨d, index, offset, m, -, rfl⟩ | ⟨-, rfl⟩
        all_goals
          rw [List.mem_singleton.mp first]
          exact nofun
      · exact ih _ x later
    next => exact fun x mem => absurd mem List.not_mem_nil

/-- The requests that the rules call for are fetches and reads (R93, R108). -/
theorem Talk.pump_purpose : ∀ x ∈ (t.pump ctx).requests, x.purpose ≠ .writeback := t.pumpFor_purpose ctx _

theorem Talk.pumpFor_current (n : Nat) : (t.pumpFor ctx n).chan.ring.current = t.ring.current ∨
    (t.pumpFor ctx n).chan.ring.current = some .fetching := by
  induction n generalizing t with
  | zero => exact .inl rfl
  | succ n ih =>
    rw [Talk.pumpFor]
    split
    next o next =>
      rcases ih o.chan with same | fetching
      · rcases Talk.nextRequest_cases next with ⟨-, rfl⟩ | ⟨d, index, offset, m, -, rfl⟩ | ⟨-, rfl⟩
        · exact .inr same
        · exact .inl same
        · exact .inl same
      · exact .inr fetching
    next => exact .inl rfl

/-- The current stays, or it is fetched (R93). -/
theorem Talk.pump_current_cases : (t.pump ctx).chan.ring.current = t.ring.current ∨
    (t.pump ctx).chan.ring.current = some .fetching := t.pumpFor_current ctx _

/-- Only the current and the list may change, and the requests are fetches. -/
structure Talk.OnlyFetches (t : Talk) (o : Out Talk) : Prop where
  chan : o.chan = { t with ring := { t.ring with current := o.chan.ring.current }, requests := o.chan.requests }
  current : o.chan.ring.current = t.ring.current ∨ o.chan.ring.current = some .fetching
  requests : ∀ x ∈ o.requests, x.purpose = .descFetch

variable {t}

theorem Talk.pumpFor_onlyFetches (n : Nat) (current : heldOf t.ring.current = none) (ahead : t.ring.ahead = none) :
    t.OnlyFetches (t.pumpFor ctx n) := by
  induction n generalizing t with
  | zero => exact ⟨rfl, .inl rfl, fun x mem => absurd mem List.not_mem_nil⟩
  | succ n ih =>
    have unheld : ∀ d, t.ring.current ≠ some (.held d) := fun d held => by
      rw [heldOf_eq_some.mpr held] at current
      cases current
    rw [Talk.pumpFor]
    split
    next o next =>
      rcases Talk.nextRequest_cases next with ⟨-, rfl⟩ | ⟨d, index, offset, m, calls, -⟩ | ⟨calls, -⟩
      · obtain ⟨chan, now, requests⟩ := ih (t := (t.withCore (t.toChannelCore.fetchCurrent ctx)).chan) rfl ahead
        refine ⟨?_, .inr (now.elim id id), fun x mem => ?_⟩
        · rw [Out.andThen_chan]
          exact chan
        · rcases List.mem_append.mp mem with first | later
          · rw [List.mem_singleton.mp first]
          · exact requests x later
      · rcases calls.2.1 with ⟨-, held⟩ | ⟨-, held⟩
        · exact absurd held (unheld d)
        · rw [ahead] at held
          cases held
      · obtain ⟨d, held, -⟩ := calls
        exact absurd held (unheld d)
    next => exact ⟨rfl, .inl rfl, fun x mem => absurd mem List.not_mem_nil⟩

/-- With nothing HELD the only request is the current's fetch (R93). -/
theorem Talk.pump_onlyFetches (current : heldOf t.ring.current = none) (ahead : t.ring.ahead = none) :
    t.OnlyFetches (t.pump ctx) := Talk.pumpFor_onlyFetches ctx _ current ahead

/-- A channel with nothing taken and no descriptor to take asks for nothing (R93, R108). -/
theorem Talk.pump_of_empty (current : t.ring.current = none) (ahead : t.ring.ahead = none)
    (empty : t.ring.ci = t.ring.fi) : t.pump ctx = Out.only t := by
  refine Talk.pump_of_none ?_
  cases next : t.nextRequest ctx with
  | none => rfl
  | some o =>
    exfalso
    rcases Talk.nextRequest_cases next with ⟨calls, -⟩ | ⟨d, index, offset, m, calls, -⟩ | ⟨⟨d, held, -⟩, -⟩
    · rcases calls with ⟨-, few⟩ | ⟨fetching, -⟩
      · have none : ¬ 0 < t.ring.count := fun some => t.ring.count_pos_iff.mp some empty
        omega
      · rw [current] at fetching
        cases fetching
    · rcases calls.2.1 with ⟨-, held⟩ | ⟨-, held⟩
      · rw [current] at held
        cases held
      · rw [ahead] at held
        cases held
    · rw [current] at held
      cases held

end

/-! ## Completion of a talk buffer (R89, R97, R114) -/

section
variable {ctx : ChannelContext} {t : Talk} {d : Descriptor} {rest : Nat}

/-- The outcome of a completion, before what it may bring about (R97 steps 1 to 3, R114). -/
def Talk.completed (ctx : ChannelContext) (d : Descriptor) (rest : Nat) (t : Talk) : Out Talk :=
  { Out.only { t with
      endWait := t.endWait || d.final
      readPoint := if t.readPoint.map Prod.fst = some t.ring.ci then some (t.ring.ci + 1, 0) else t.readPoint
      requests := t.requests ++ [writebackEntry t.ring.ci .ok d.event]
      ring := { t.ring with
        ci := t.ring.ci + 1, current := t.ring.ahead, ahead := none
        position := if t.ring.ahead.isSome then rest else 0 } } with
    requests := [t.ring.writebackRequest ctx t.ring.ci [completionWord2 .ok d.length, completionWord3 ctx.stamp none]]
    release := d.final && !t.closeTaken }

theorem Talk.complete_eq (ctx : ChannelContext) (d : Descriptor) (rest : Nat) (t : Talk) :
    { Talk.withCore { t with
        endWait := t.endWait || d.final
        readPoint := if t.readPoint.map Prod.fst == some t.ring.ci then some (t.ring.ci + 1, 0) else t.readPoint }
        (t.toChannelCore.complete ctx d rest none) with release := d.final && !t.closeTaken } =
      Talk.completed ctx d rest t := by
  have point : (if t.readPoint.map Prod.fst == some t.ring.ci then some (t.ring.ci + 1, 0) else t.readPoint) =
      if t.readPoint.map Prod.fst = some t.ring.ci then some (t.ring.ci + 1, 0) else t.readPoint :=
    if_congr beq_iff_eq rfl rfl
  rw [point, ChannelCore.complete, ChannelCore.writeback_eq, completionWords_none]
  rfl

/-- A failure pending on the ahead takes effect as it becomes the current (R97 step 4). -/
theorem Talk.complete_of_pending (quiet : t.onLine = none) {reason : HaltReason}
    (pending : pendingHalt t.ring.ahead = some reason) :
    t.complete ctx d rest = (Talk.completed ctx d rest t).andThen (Talk.enterHalted ctx reason) := by
  unfold Talk.complete
  dsimp only
  rw [Talk.complete_eq]
  split
  next other is =>
    have same : pendingHalt t.ring.ahead = some other := is
    cases pending.symm.trans same
    exact Out.andThen_congr (Talk.halt_of_quiet quiet)
  next is => cases pending.symm.trans (show pendingHalt t.ring.ahead = none from is)

theorem Talk.complete_of_none (pending : pendingHalt t.ring.ahead = none) :
    t.complete ctx d rest = Talk.completed ctx d rest t := by
  unfold Talk.complete
  dsimp only
  rw [Talk.complete_eq]
  split
  next other is => cases pending.symm.trans (show pendingHalt t.ring.ahead = some other from is)
  next => rfl

theorem Talk.completions_of_unheld (n : Nat) (unheld : heldOf t.ring.current = none) :
    t.completions ctx n = Out.only t := by
  cases n with
  | zero => rfl
  | succ n => simp only [Talk.completions, unheld]

theorem Talk.completions_of_short (n : Nat) (current : t.ring.current = some (.held d))
    (short : t.ring.position < d.length) : t.completions ctx n = Out.only t := by
  cases n with
  | zero => rfl
  | succ n => simp only [Talk.completions, heldOf_eq_some.mpr current, if_neg (Nat.not_le.mpr short)]

/-- A buffer whose last word has been sent is passed, and the next one is not full yet (R89, R97). -/
theorem Talk.completions_of_full (quiet : t.onLine = none) (current : t.ring.current = some (.held d))
    (full : t.ring.position = d.length + rest) (fits : ∀ a, t.ring.ahead = some (.held a) → rest < a.length) :
    t.completions ctx 3 = t.complete ctx d rest := by
  have rests : t.ring.position - d.length = rest := by omega
  have first : t.completions ctx 3 = (t.complete ctx d rest).andThen (Talk.completions ctx 2) := by
    rw [Talk.completions, heldOf_eq_some.mpr current, ← rests]
    exact if_pos (by omega)
  rw [first]
  refine Out.andThen_of_only ?_
  cases pending : pendingHalt t.ring.ahead with
  | some reason =>
    refine Talk.completions_of_unheld 2 ?_
    rw [Talk.complete_of_pending quiet pending, Out.andThen_chan, Talk.enterHalted_eq]
    have closes := (Talk.completed ctx d rest t).chan.toChannelCore.closes_halt ctx none reason
    exact congrArg heldOf closes.current
  | none =>
    rw [Talk.complete_of_none pending]
    by_cases held : ∃ a, t.ring.ahead = some (.held a)
    · obtain ⟨a, ahead⟩ := held
      refine Talk.completions_of_short (d := a) 2 ahead ?_
      change (if t.ring.ahead.isSome then rest else 0) < a.length
      rw [ahead]
      exact fits a ahead
    · refine Talk.completions_of_unheld 2 ?_
      change heldOf t.ring.ahead = none
      rw [Option.eq_none_iff_forall_ne_some]
      exact fun a is => held ⟨a, heldOf_eq_some.mp is⟩

end

/-! ## The report (R112, R118) -/

section
variable {ctx : ChannelContext} {t : Talk} {words : List StagedWord} {o : Out Talk}

theorem Talk.countSent_nil (t : Talk) : t.countSent [] = { t with onLine := none } := by
  simp [Talk.countSent]

theorem Talk.sent_eq (out : t.onLine = some words) : t.sent ctx =
    (Talk.settle ctx ((t.countSent words).completions ctx 3)).andThen (Talk.takeHeldHalt ctx) := by
  unfold Talk.sent
  rw [out]
  rfl

theorem Talk.settle_heldHalts (o : Out Talk) : (Talk.settle ctx o).chan.heldHalts = o.chan.heldHalts := by
  rw [Talk.settle_chan, Talk.pump_heldHalts]
  rfl

/-- With no halt held the report ends with the requests then called for (R112). -/
theorem Talk.sent_of_free (out : t.onLine = some words) (done : (t.countSent words).completions ctx 3 = o)
    (free : o.chan.heldHalts = []) : t.sent ctx = Talk.settle ctx o := by
  rw [Talk.sent_eq out, done]
  exact Out.andThen_of_only (Talk.takeHeldHalt_none ((Talk.settle_heldHalts o).trans free))

/-- The first halt held takes its steps on what the report leaves (R118; log entry 15). -/
theorem Talk.sent_of_held {reason : HaltReason} {more : List HaltReason} (out : t.onLine = some words)
    (done : (t.countSent words).completions ctx 3 = o) (held : o.chan.heldHalts = reason :: more)
    (works : o.chan.state = .running ∨ o.chan.state = .starved) :
    t.sent ctx = (Talk.settle ctx o).andThen (Talk.enterHalted ctx reason) := by
  have working : (Talk.settle ctx o).chan.state ≠ .halted := by
    rw [Talk.settle_chan, Talk.pump_state]
    unfold Talk.due
    rcases works with state | state <;> rw [state]
    all_goals
      dsimp only
      split
      · simp_all
      · split
        · decide
        · split <;> decide
  rw [Talk.sent_eq out, done]
  exact Out.andThen_congr (Talk.takeHeldHalt_first ((Talk.settle_heldHalts o).trans held) working)

end

/-! ## The records of a report, and the mailbox (R102, R113) -/

/-- Every record of an outcome is such a record. -/
def Out.Tells {α : Type} (p : EventRecord → Prop) (o : Out α) : Prop := ∀ r ∈ o.records, p r

/-- A record of a talk channel that starves or halts (R102, R113). -/
def EventRecord.stops (c : ChannelId) (r : EventRecord) : Prop :=
  r.channel = some c ∧ (r.kind = .channelStarved ∨ r.kind = .channelHalted)

theorem Out.Tells.of_nil {α : Type} {p : EventRecord → Prop} {o : Out α} (none : o.records = []) : o.Tells p := by
  simp [Out.Tells, none]

theorem Out.Tells.andThen {α β : Type} {p : EventRecord → Prop} {o : Out α} (h : o.Tells p) {f : α → Out β}
    (g : (f o.chan).Tells p) : (o.andThen f).Tells p :=
  fun r mem => (List.mem_append.mp mem).elim (h r) (g r)

section
variable (ctx : ChannelContext) (t : Talk)

theorem Talk.enterHalted_stops (reason : HaltReason) :
    (t.enterHalted ctx reason).Tells (EventRecord.stops ctx.channel) := by
  rw [Talk.enterHalted_eq]
  exact fun r mem => List.mem_singleton.mp mem ▸ ⟨rfl, .inr rfl⟩

theorem Talk.enterHalted_done (reason : HaltReason) : (t.enterHalted ctx reason).done = false := by
  rw [Talk.enterHalted_eq]
  exact t.toChannelCore.halt_done ctx none reason

theorem Talk.halt_stops (reason : HaltReason) : (t.halt ctx reason).Tells (EventRecord.stops ctx.channel) := by
  unfold Talk.halt
  split
  · exact .of_nil rfl
  · exact t.enterHalted_stops ctx reason

theorem Talk.halt_done (reason : HaltReason) : (t.halt ctx reason).done = false := by
  unfold Talk.halt
  split
  · rfl
  · exact t.enterHalted_done ctx reason

theorem Talk.takeHeldHalt_stops : (t.takeHeldHalt ctx).Tells (EventRecord.stops ctx.channel) := by
  unfold Talk.takeHeldHalt
  split
  · exact .of_nil rfl
  · split
    · exact .of_nil rfl
    · exact t.enterHalted_stops ctx _

theorem Talk.takeHeldHalt_done : (t.takeHeldHalt ctx).done = false := by
  unfold Talk.takeHeldHalt
  split
  · rfl
  · split
    · rfl
    · exact t.enterHalted_done ctx _

theorem Talk.rejudge_stops : (t.rejudge ctx).Tells (EventRecord.stops ctx.channel) := by
  unfold Out.Tells
  rw [Talk.rejudge_records]
  split
  · exact fun r mem => List.mem_singleton.mp mem ▸ ⟨rfl, .inl rfl⟩
  · exact fun r mem => absurd mem List.not_mem_nil

theorem Talk.complete_stops (d : Descriptor) (rest : Nat) :
    (t.complete ctx d rest).Tells (EventRecord.stops ctx.channel) := by
  unfold Talk.complete
  dsimp only
  rw [Talk.complete_eq]
  split
  · exact Out.Tells.andThen (.of_nil rfl) (Talk.halt_stops ctx _ _)
  · exact .of_nil rfl

theorem Talk.complete_done (d : Descriptor) (rest : Nat) : (t.complete ctx d rest).done = false := by
  unfold Talk.complete
  dsimp only
  rw [Talk.complete_eq]
  split
  · exact Talk.halt_done ctx _ _
  · rfl

theorem Talk.completions_stops (n : Nat) : (t.completions ctx n).Tells (EventRecord.stops ctx.channel) := by
  induction n generalizing t with
  | zero => exact .of_nil rfl
  | succ n ih =>
    unfold Talk.completions
    split
    · split
      · exact (t.complete_stops ctx _ _).andThen (ih _)
      · exact .of_nil rfl
    · exact .of_nil rfl

theorem Talk.completions_done (n : Nat) : (t.completions ctx n).done = false := by
  induction n generalizing t with
  | zero => rfl
  | succ n ih =>
    unfold Talk.completions
    split
    · split
      · exact Bool.or_eq_false_iff.mpr ⟨t.complete_done ctx _ _, ih _⟩
      · rfl
    · rfl

/-- A report makes no record but CHANNEL_STARVED and CHANNEL_HALTED of its channel. -/
theorem Talk.sent_stops : (t.sent ctx).Tells (EventRecord.stops ctx.channel) := by
  unfold Talk.sent
  split
  · exact .of_nil rfl
  · exact (((Talk.completions_stops ctx _ 3).andThen (Talk.rejudge_stops ctx _)).andThen
      (.of_nil (Talk.pump_records ..))).andThen (Talk.takeHeldHalt_stops ctx _)

/-- A report completes no command. -/
theorem Talk.sent_done : (t.sent ctx).done = false := by
  unfold Talk.sent
  split
  · rfl
  next words out =>
    change ((Talk.settle ctx ((t.countSent words).completions ctx 3)).done || (Talk.takeHeldHalt ctx _).done) = false
    rw [Talk.settle_done, Talk.completions_done, Talk.takeHeldHalt_done]
    rfl

end

end Sys2Proof.Machine

/-! The own burst read back (R15, R20): what is observed, what LNE hears, and the part after LIF's sent report. -/

namespace Sys2Proof.Machine

/-! ## What the readback forms (R15) -/

section
variable {sent b : Burst} {readback : LineBurst}

theorem readbackMatches_iff : readbackMatches sent readback = true ↔ readback.header = sent.line.header ∧
    readback.payload.toList.take sent.words.length = sent.words ∧ readback.check = sent.line.check := by
  rw [readbackMatches, Bool.and_eq_true, Bool.and_eq_true, beq_iff_eq, beq_iff_eq, beq_iff_eq, and_assoc]
  rfl

theorem sentObservation_eq : sentObservation sent readback =
    if readback.header = sent.line.header ∧ readback.payload.toList.take sent.words.length = sent.words ∧
        readback.check = sent.line.check then .sentMatch sent.tag
    else .sentMismatch ((readbackBurst sent readback).map fun b => (b.owner, b.tag)) :=
  if_congr readbackMatches_iff rfl rfl

theorem heardBack_eq : heardBack sent readback =
    if readback.header = sent.line.header ∧ readback.payload.toList.take sent.words.length = sent.words ∧
        readback.check = sent.line.check then some sent
    else readbackBurst sent readback :=
  if_congr readbackMatches_iff rfl rfl

/-- The burst that bits carry, field by field (R172). -/
theorem LineBurst.burst_eq_iff : readback.burst = b ↔
    b.owner.val = (readback.header.extractLsb' 17 5).toNat ∧ b.tag = readback.header.extractLsb' 9 8 ∧
      (b.kind = .data ↔ readback.header.getLsbD 8 = true) ∧ b.sequence = readback.header.extractLsb' 0 4 ∧
      b.words = readback.payload.toList.take readback.count := by
  have kinds : (if readback.header.getLsbD 8 then BurstKind.data else .fill) = b.kind ↔
      (b.kind = .data ↔ readback.header.getLsbD 8 = true) := by
    cases b.kind <;> cases readback.header.getLsbD 8 <;> decide
  have owners : index5 (readback.header.extractLsb' 17 5) = b.owner ↔
      b.owner.val = (readback.header.extractLsb' 17 5).toNat := by
    rw [eq_comm, Fin.ext_iff]
    rfl
  rw [← kinds, ← owners]
  obtain ⟨owner, tag, kind, sequence, words⟩ := b
  simp only [LineBurst.burst, LineBurst.firstWords, Burst.mk.injEq]
  constructor
  · rintro ⟨rfl, rfl, kind, rfl, rfl⟩
    exact ⟨rfl, rfl, kind, rfl, rfl⟩
  · rintro ⟨rfl, rfl, kind, rfl, rfl⟩
    exact ⟨rfl, rfl, kind, rfl, rfl⟩

theorem readbackBurst_eq_some : readbackBurst sent readback = some b ↔
    readback.malformed = false ∧ readback.count ≤ sent.words.length ∧
      readback.good (readbackCheck readback sent.words.length) = true ∧ readback.burst = b := by
  unfold readbackBurst
  simp [and_assoc]

theorem LineBurst.not_malformed_iff : readback.malformed = false ↔
    readback.count ≤ 8 ∧ (readback.burst.kind = .fill → readback.count = 0) ∧ readback.burst.tag ≠ 0 := by
  rw [Bool.eq_false_iff, ne_eq, LineBurst.malformed, Bool.or_eq_true, Bool.or_eq_true, Bool.and_eq_true,
    decide_eq_true_eq, beq_iff_eq, bne_iff_ne, beq_iff_eq, not_or, not_or, not_and_not_right, not_lt, and_assoc]
  rfl

end

/-! ## LNE after the report (R127) -/

section
variable (s : State) (slot : Slot) (heard : Option Burst)

/-- LNE hears a burst, or none. -/
def State.handHeard : State :=
  match heard with
  | none => s
  | some b => s.handBurst slot b

@[simp] theorem State.handHeard_none : s.handHeard slot none = s := by
  simp only [State.handHeard]
@[simp] theorem State.handHeard_some (b : Burst) : s.handHeard slot (some b) = s.handBurst slot b := by
  simp only [State.handHeard]

@[simp] theorem State.handHeard_stc : (s.handHeard slot heard).stc = s.stc := by cases heard <;> simp
@[simp] theorem State.handHeard_rtm : (s.handHeard slot heard).rtm = s.rtm := by cases heard <;> simp
@[simp] theorem State.handHeard_lif : (s.handHeard slot heard).lif = s.lif := by cases heard <;> simp
@[simp] theorem State.handHeard_smap : (s.handHeard slot heard).smap = s.smap := by cases heard <;> simp
@[simp] theorem State.handHeard_cle : (s.handHeard slot heard).cle = s.cle := by cases heard <;> simp
@[simp] theorem State.handHeard_talk : (s.handHeard slot heard).talk = s.talk := by cases heard <;> simp
@[simp] theorem State.handHeard_boundary : (s.handHeard slot heard).boundary = s.boundary := by cases heard <;> simp
@[simp] theorem State.handHeard_mailbox : (s.handHeard slot heard).hpt.mailbox = s.hpt.mailbox := by
  cases heard <;> simp

theorem State.handHeard_queue : ∃ more, (s.handHeard slot heard).evq.queue = s.evq.queue ++ more := by
  cases heard with
  | none => exact ⟨[], (List.append_nil _).symm⟩
  | some b =>
    rw [State.handHeard_some, State.handBurst]
    exact (s.eachListen_reported _).queue

/-- The events of the listen channels reach no waiting list of a talk channel (R140). -/
theorem State.handHeard_waiting (k : TalkId) :
    (s.handHeard slot heard).mpt.waiting[talkChannel k] = s.mpt.waiting[talkChannel k] := by
  cases heard with
  | none => rfl
  | some b =>
    rw [State.handHeard_some, State.handBurst]
    refine State.eachListen_induct (p := fun u => u.mpt.waiting[talkChannel k] = s.mpt.waiting[talkChannel k])
      (fun u j same => ?_) rfl
    have apart : (listenChannel j).val ≠ (talkChannel k).val := fun same =>
      talkChannel_ne_listenChannel k j (Fin.ext same.symm)
    rw [State.applyListen_mpt, ← same]
    exact Vector.getElem_set_ne (by omega) _ apart

end

/-! ## The report (R112, R114) -/

/-- The part after the report of talk channel k, with what it made of the channel. -/
structure State.BurstReported (s t : State) (k : TalkId) (o : Out Talk) : Prop where
  chan : t.talk[k] = o.chan
  others : ∀ j : TalkId, j ≠ k → t.talk[j] = s.talk[j]
  waiting : t.mpt.waiting[talkChannel k] = s.mpt.waiting[talkChannel k] ++ o.requests
  queue : ∃ more, t.evq.queue = (s.postAll o.records).evq.queue ++ more
  idle : t.lif.activity = .idle
  stc : t.stc = s.stc
  mailbox : t.hpt.mailbox = s.hpt.mailbox
  boundary : t.boundary = s.boundary
  cle : o.release = false → t.cle = s.cle
  joins : o.release = true → s.stc.state = .joined → s.cle.holds k = false →
    t.cle = { s.cle with queue := s.cle.queue ++ [.new .release k o.chan.bound (o.chan.tag.getD 0)] }

theorem State.endRelease_of_joined {s : State} {k : TalkId} (joined : s.stc.state = .joined)
    (free : s.cle.holds k = false) : (s.endRelease k).cle =
      { s.cle with queue := s.cle.queue ++ [.new .release k s.talk[k].bound (s.talk[k].tag.getD 0)] } := by
  unfold State.endRelease
  rw [if_pos (by simp [joined, free])]
  rfl

theorem State.applyTalk_cle_of_release {s : State} {k : TalkId} {f : ChannelContext → Talk → Out Talk} {o : Out Talk}
    (is : f (s.talkContext k) s.talk[k] = o) (release : o.release = true) (joined : s.stc.state = .joined)
    (free : s.cle.holds k = false) : (s.applyTalk k f).cle =
      { s.cle with queue := s.cle.queue ++ [.new .release k o.chan.bound (o.chan.tag.getD 0)] } := by
  unfold State.applyTalk
  dsimp only
  rw [is, if_pos release, State.endRelease_of_joined (by simpa using joined) (by simpa using free)]
  simp

/-! ## The end of the own burst (R15, R20) -/

section
variable {s : State} {slot : Slot} {sent : Burst} {k : TalkId} {words : List StagedWord}

/-- The part when LIF has read the own burst back, before its report (R15, R20). -/
def State.ownBurstRead (s : State) (slot : Slot) (sent : Burst) (readback : LineBurst) : State :=
  s.slotRead slot (readback.bits sent.words.length) (sentObservation sent readback)

variable (out : s.burstOut slot sent k words) (readback : LineBurst)
include out

theorem State.burstOut.read : s.ownBurstRead slot sent readback = { s with
    smap := { s.smap with observations := s.smap.observations.set slot (some (sentObservation sent readback)) }
    rtm := { s.rtm with elapsed := some (199 + 320 * slot.val + 32 * sent.words.length) }
    lif := { s.lif with
      activity := .idle
      lastDominant := s.dominantAfter (160 + 320 * slot.val) (readback.bits sent.words.length)
      watchesFrom := 199 + 320 * slot.val + 32 * sent.words.length } } := by
  obtain ⟨-, now, few, -⟩ := out
  have length := LineBurst.length_bits (l := readback) few
  exact State.slotRead_eq (by omega) (by omega)

/-- The readback ends: the report to TKE, and what LNE hears (R15, R127). -/
theorem State.burstOut.ends : s.endOwnBurst readback =
    ((s.ownBurstRead slot sent readback).applyTalk k Talk.sent).handHeard slot (heardBack sent readback) := by
  obtain ⟨sending, -, few, bound, alone, -⟩ := out
  have length : (readback.bits sent.words.length).length = burstBits sent.words.length := LineBurst.length_bits few
  have reported : (s.ownBurstRead slot sent readback).reportSent slot =
      (s.ownBurstRead slot sent readback).applyTalk k Talk.sent := by
    unfold State.reportSent
    rw [State.talkAt_of_only (s := s.ownBurstRead slot sent readback) bound alone]
  rw [← reported, State.ownBurstRead, State.slotRead, length]
  unfold State.endOwnBurst State.handHeard
  rw [sending]
  dsimp only
  cases heardBack sent readback with
  | none => dsimp only
  | some b => dsimp only

/-- What the readback leaves of the part before its report (R15, R20). -/
structure State.ReadBack (s u : State) : Prop where
  talk : u.talk = s.talk
  listen : u.listen = s.listen
  mpt : u.mpt = s.mpt
  stc : u.stc = s.stc
  stamp : u.stamp = s.stamp
  evq : u.evq = s.evq
  cle : u.cle = s.cle
  mailbox : u.hpt.mailbox = s.hpt.mailbox
  boundary : u.boundary = s.boundary
  idle : u.lif.activity = .idle

theorem State.burstOut.readBack : s.ReadBack (s.ownBurstRead slot sent readback) := by
  rw [out.read readback]
  exact ⟨rfl, rfl, rfl, rfl, rfl, rfl, rfl, rfl, rfl, rfl⟩

omit out in
/-- A report after the readback, and what LNE hears. -/
theorem State.ReadBack.reported {u : State} (read : s.ReadBack u) {f : ChannelContext → Talk → Out Talk} {o : Out Talk}
    (is : f (s.talkContext k) s.talk[k] = o) (done : o.done = false) (heard : Option Burst) :
    s.BurstReported ((u.applyTalk k f).handHeard slot heard) k o := by
  have context : u.talkContext k = s.talkContext k := by
    rw [State.talkContext, read.stamp]
    rfl
  have is' : f (u.talkContext k) u.talk[k] = o := by rw [context, read.talk, is]
  refine ⟨?_, fun j other => ?_, ?_, ?_, ?_, ?_, ?_, ?_, fun release => ?_, fun release joined free => ?_⟩
  · rw [State.handHeard_talk, State.applyTalk_get, is']
  · rw [State.handHeard_talk, State.applyTalk_other f other.symm, read.talk]
  · rw [State.handHeard_waiting, State.applyTalk_mpt, is', read.mpt]
    exact Vector.getElem_set_self _
  · obtain ⟨more, queue⟩ := (u.applyTalk k f).handHeard_queue slot heard
    refine ⟨more, ?_⟩
    rw [queue, State.applyTalk_evq, is', State.postAll_evq_congr read.evq (by rw [read.stc]) read.stamp]
  · rw [State.handHeard_lif, State.applyTalk_lif, read.idle]
  · rw [State.handHeard_stc, State.applyTalk_stc, read.stc]
  · rw [State.handHeard_mailbox, State.applyTalk_mailbox, is', if_neg (by simp [done]), read.mailbox]
  · rw [State.handHeard_boundary, State.applyTalk_boundary, read.boundary]
  · rw [State.handHeard_cle, State.applyTalk_cle (by rw [is', release]), read.cle]
  · rw [State.handHeard_cle, State.applyTalk_cle_of_release is' release (by rw [read.stc, joined])
      (by rw [read.cle, free]), read.cle]

/-- The own burst's end, for what the report makes of the channel (R112). -/
theorem State.burstOut.reported {o : Out Talk} (is : Talk.sent (s.talkContext k) s.talk[k] = o) :
    ∃ t, exec (.burstSent readback) s = .next t ∧ s.BurstReported t k o :=
  ⟨_, next_of_eq (out.ends readback), (out.readBack readback).reported is (by rw [← is, Talk.sent_done]) _⟩

omit out in
/-- LNE hears what the readback tells, behind the records of the report (R15, R127; log entry 10). -/
theorem State.ReadBack.hears {u : State} (read : s.ReadBack u) (f : ChannelContext → Talk → Out Talk)
    (heard : Option Burst) : s.hears ((u.applyTalk k f).handHeard slot heard) slot heard
      (f (s.talkContext k) s.talk[k]).records := by
  have context : u.talkContext k = s.talkContext k := by
    rw [State.talkContext, read.stamp]
    rfl
  have listen : (u.applyTalk k f).listen = s.listen := by rw [State.applyTalk_listen, read.listen]
  have evq : (u.applyTalk k f).evq = (s.postAll (f (s.talkContext k) s.talk[k]).records).evq := by
    rw [State.applyTalk_evq, context, read.talk, State.postAll_evq_congr read.evq (by rw [read.stc]) read.stamp]
  have waiting : ∀ j : ListenId,
      (u.applyTalk k f).mpt.waiting[listenChannel j] = s.mpt.waiting[listenChannel j] := fun j => by
    have apart : (talkChannel k).val ≠ (listenChannel j).val := fun same =>
      talkChannel_ne_listenChannel k j (Fin.ext same)
    rw [State.applyTalk_mpt, ← read.mpt]
    exact Vector.getElem_set_ne (by omega) _ apart
  cases heard with
  | none =>
    rw [State.handHeard_none]
    exact State.hears_of_none listen evq waiting
  | some b =>
    rw [State.handHeard_some]
    refine State.hears_handBurst listen evq waiting (by rw [State.applyTalk_stc, read.stc]) ?_
    rw [State.stamp, State.applyTalk_rtm]
    exact read.stamp

end

/-! ## What the report leaves, in the terms of its outcome -/

section
variable {s t : State} {k : TalkId}

/-- A record that the report makes is in the queue behind at most two others (R165 to R167). -/
theorem State.BurstReported.reports {o : Out Talk} (after : s.BurstReported t k o) {r : EventRecord}
    (made : r ∈ o.records) (few : o.records.length ≤ 3) : s.reports t r := by
  intro recorded room
  obtain ⟨more, queue⟩ := after.queue
  rw [queue]
  exact List.mem_append_left _ (State.reports_of_mem rfl made few recorded room)

section
variable {o : Out Talk} (after : s.BurstReported t k (Talk.settle (s.talkContext k) o))
include after

theorem State.BurstReported.settled_chan : t.talk[k] = (Talk.pump (s.talkContext k) o.chan.due).chan := by
  rw [after.chan, Talk.settle_chan]

theorem State.BurstReported.settled_waiting : t.mpt.waiting[talkChannel k] = s.mpt.waiting[talkChannel k] ++
    (o.requests ++ (Talk.pump (s.talkContext k) o.chan.due).requests) := by
  rw [after.waiting, Talk.settle_requests]

theorem State.BurstReported.settled_asks : s.talkAsks t k o.requests o.chan.due :=
  ⟨_, rfl, after.settled_chan, by rw [after.settled_waiting, List.append_assoc]; rfl⟩

theorem State.BurstReported.settled_cle (release : o.release = false) : t.cle = s.cle :=
  after.cle ((Talk.settle_release _ _).trans release)

theorem State.BurstReported.settled_joins (release : o.release = true) (joined : s.stc.state = .joined)
    (free : s.cle.holds k = false) :
    t.cle = { s.cle with queue := s.cle.queue ++ [.new .release k o.chan.bound (o.chan.tag.getD 0)] } := by
  have kept : (Talk.settle (s.talkContext k) o).chan.bound = o.chan.bound ∧
      (Talk.settle (s.talkContext k) o).chan.tag = o.chan.tag := by
    rw [Talk.settle_chan, Talk.pump_bound, Talk.pump_tag]
    exact ⟨rfl, rfl⟩
  rw [after.joins ((Talk.settle_release _ _).trans release) joined free, kept.1, kept.2]

/-- What is taken as a current stays so. -/
theorem State.BurstReported.settled_current {found : Taken} (current : o.chan.ring.current = some found) :
    t.talk[k].ring.current = some found := by
  rw [after.settled_chan]
  exact ((Talk.pump_pumped _ o.chan.due).current (Option.isSome_iff_exists.mpr ⟨found, current⟩)).trans current

/-- The channel but for what the requests change (R93, R108). -/
theorem State.BurstReported.settled_kept : t.talk[k] = { o.chan.due with
    requests := t.talk[k].requests, readPoint := t.talk[k].readPoint
    ring := { o.chan.ring with current := t.talk[k].ring.current, ahead := t.talk[k].ring.ahead } } := by
  have kept := (Talk.pump_pumped (s.talkContext k) o.chan.due).chan
  rw [← after.settled_chan] at kept
  exact kept

/-- What the report leaves for good of its outcome. -/
theorem State.BurstReported.settled_same : t.talk[k].onLine = o.chan.onLine ∧ t.talk[k].staging = o.chan.staging ∧
    t.talk[k].wordsSent = o.chan.wordsSent ∧ t.talk[k].bound = o.chan.bound ∧ t.talk[k].tag = o.chan.tag ∧
    t.talk[k].sequence = o.chan.sequence ∧ t.talk[k].lateCount = o.chan.lateCount ∧
    t.talk[k].endWait = o.chan.endWait ∧ t.talk[k].ring.ci = o.chan.ring.ci ∧
    t.talk[k].ring.position = o.chan.ring.position := by
  rw [after.settled_kept]
  exact ⟨rfl, rfl, rfl, rfl, rfl, rfl, rfl, rfl, rfl, rfl⟩

end

/-- The part after a halt that ends the report (R102, R118). -/
theorem State.BurstReported.halts {o : Out Talk} {reason : HaltReason}
    (after : s.BurstReported t k (o.andThen (Talk.enterHalted (s.talkContext k) reason))) :
    t.talk[k] = o.chan.haltedAs reason (o.chan.toChannelCore.halt (s.talkContext k) reason none).chan ∧
      t.mpt.waiting[talkChannel k] = s.mpt.waiting[talkChannel k] ++ (o.requests ++
        (o.chan.toChannelCore.halt (s.talkContext k) reason none).requests) ∧
      (o.records.length ≤ 2 → ∀ detail, reason.detail o.chan.ring.ci = detail →
        s.reports t (haltRecord (talkChannel k) detail)) := by
  have halted := Talk.enterHalted_eq (s.talkContext k) reason o.chan
  refine ⟨?_, ?_, fun few detail same => ?_⟩
  · rw [after.chan, Out.andThen_chan, halted]
    rfl
  · rw [after.waiting]
    simp only [Out.andThen, halted]
    rfl
  · have records : (o.andThen (Talk.enterHalted (s.talkContext k) reason)).records =
        o.records ++ [haltRecord (talkChannel k) detail] := by
      simp only [Out.andThen, halted, same]
      rfl
    refine after.reports ?_ ?_
    · rw [records]
      exact List.mem_append_right _ (List.mem_singleton_self _)
    · rw [records, List.length_append, List.length_singleton]
      omega

end

end Sys2Proof.Machine

/-! The own burst read back, by what its report finds at the channel (R89, R97, R112 to R114, R118). -/

namespace Sys2Proof.Machine

/-! ## What a readback forms (R15) -/

theorem readbackBurst_iff (sent b : Burst) (readback : LineBurst) : readbackBurst sent readback = some b ↔
    readback.count ≤ 8 ∧ readback.count ≤ sent.words.length ∧ b.tag ≠ 0 ∧ (b.kind = .fill → readback.count = 0) ∧
      b.owner.val = (readback.header.extractLsb' 17 5).toNat ∧ b.tag = readback.header.extractLsb' 9 8 ∧
      (b.kind = .data ↔ readback.header.getLsbD 8 = true) ∧ b.sequence = readback.header.extractLsb' 0 4 ∧
      b.words = readback.payload.toList.take readback.count ∧
      burstCheck (readback.header.extractLsb' 0 22) b.words = readbackCheck readback sent.words.length := by
  rw [readbackBurst_eq_some, LineBurst.not_malformed_iff, LineBurst.good, beq_iff_eq]
  constructor
  · rintro ⟨⟨few, empty, tagged⟩, inside, good, rfl⟩
    obtain ⟨owner, tag, kind, sequence, words⟩ := LineBurst.burst_eq_iff.mp (rfl : readback.burst = readback.burst)
    exact ⟨few, inside, tagged, empty, owner, tag, kind, sequence, words, good⟩
  · rintro ⟨few, inside, tagged, empty, owner, tag, kind, sequence, words, good⟩
    have same := LineBurst.burst_eq_iff.mpr ⟨owner, tag, kind, sequence, words⟩
    subst same
    exact ⟨⟨few, empty, tagged⟩, inside, good, rfl⟩

theorem ringIndex_succ_succ (i : RingIndex) : i + 1 + 1 = i + 2 := by
  rw [add_assoc]
  rfl

/-! ## The channel after the words are counted (R89, R97, R112) -/

section
variable {ctx : ChannelContext} {t : Talk} {d : Descriptor} {rest : Nat}

theorem Talk.due_of_halted (halted : t.state = .halted) : t.due = t := by
  simp only [Talk.due, halted, or_true, if_true]
  rw [← halted]

/-- A bound channel with nothing to send starves (R106). -/
theorem Talk.due_of_drained (works : t.state = .running ∨ t.state = .starved) {slot : Slot}
    (bound : t.bound = some slot) (empty : t.ring.ci = t.ring.fi) (staging : t.staging = [])
    (endWait : t.endWait = false) : t.due = { t with state := .starved } := by
  rcases works with state | state <;> simp [Talk.due, state, bound, empty, staging, endWait]

theorem Talk.due_of_filled (running : t.state = .running) {slot : Slot} (bound : t.bound = some slot)
    (filled : t.ring.ci ≠ t.ring.fi) : t.due = t := by
  have state : (if t.state = .closed ∨ t.state = .halted then t.state else if t.bound = none then .armed
      else if t.ring.ci ≠ t.ring.fi ∨ t.staging ≠ [] ∨ t.endWait = true then .running else .starved) = t.state := by
    simp [running, bound, filled]
  rw [Talk.due, state]

/-- A completion's outcome, where the next buffer has the words over or there are none. -/
theorem Talk.completed_chan (overlaps : t.ring.ahead.isSome = true ∨ rest = 0) : (Talk.completed ctx d rest t).chan =
    { t with
      endWait := t.endWait || d.final
      readPoint := if t.readPoint.map Prod.fst = some t.ring.ci then some (t.ring.ci + 1, 0) else t.readPoint
      requests := t.requests ++ [writebackEntry t.ring.ci .ok d.event]
      ring := { t.ring with ci := t.ring.ci + 1, current := t.ring.ahead, ahead := none, position := rest } } := by
  have position : (if t.ring.ahead.isSome then rest else 0) = rest := by
    rcases overlaps with some | none
    · exact if_pos some
    · rw [none, ite_self]
  rw [Talk.completed, position]
  rfl

/-- What the requests leave of the ring. -/
theorem Talk.settle_ring (o : Out Talk) : (Talk.settle ctx o).chan.ring = { o.chan.ring with
    current := (Talk.settle ctx o).chan.ring.current, ahead := (Talk.settle ctx o).chan.ring.ahead } := by
  rw [Talk.settle_chan]
  exact congrArg (fun u : Talk => u.ring) (Talk.pump_pumped ctx o.chan.due).chan

theorem Talk.settle_current_cases (o : Out Talk) : (Talk.settle ctx o).chan.ring.current = o.chan.ring.current ∨
    (Talk.settle ctx o).chan.ring.current = some .fetching := by
  rw [Talk.settle_chan]
  exact Talk.pump_current_cases ctx o.chan.due

theorem Talk.settle_current {o : Out Talk} {found : Taken} (current : o.chan.ring.current = some found) :
    (Talk.settle ctx o).chan.ring.current = some found := by
  rw [Talk.settle_chan]
  exact ((Talk.pump_pumped ctx o.chan.due).current (Option.isSome_iff_exists.mpr ⟨found, current⟩)).trans current

end

/-! ## A halt that was held (R118) -/

section
variable {s t : State} {k : TalkId} {o : Out Talk} {reason : HaltReason}

theorem State.BurstReported.talkHalts
    (after : s.BurstReported t k (o.andThen (Talk.enterHalted (s.talkContext k) reason)))
    (bound : o.chan.bound = s.talk[k].bound) : s.talkHalts t k reason.cause := by
  obtain ⟨chan, -⟩ := after.halts
  have closes := o.chan.toChannelCore.closes_halt (s.talkContext k) none reason
  unfold State.talkHalts
  rw [chan]
  exact ⟨rfl, rfl, rfl, rfl, rfl, rfl, bound, closes.current, closes.ahead, closes.position, closes.stale⟩

end

/-! ## The six clauses of the report -/

/-- The outcome of a buffer's completion once the words are counted, before what it may bring about. -/
def State.completes (s : State) (k : TalkId) (words : List StagedWord) (d : Descriptor) (rest : Nat) : Out Talk :=
  Talk.completed (s.talkContext k) d rest (s.talk[k].countSent words)

section
variable {s : State} {slot : Slot} {sent : Burst} {k : TalkId} {words : List StagedWord} (readback : LineBurst)

/-- The observation, and what LNE hears behind the records of the report (R15, R20, R127). -/
theorem State.burstOut.observed (out : s.burstOut slot sent k words) : ∃ t, exec (.burstSent readback) s = .next t ∧
    t.lif.activity = .idle ∧
    t.rtm = { s.rtm with elapsed := some (199 + 320 * slot.val + 32 * sent.words.length) } ∧
    t.smap = { s.smap with
      observations := s.smap.observations.set slot (some (sentObservation sent readback)) } ∧
    s.hears t slot (heardBack sent readback) (Talk.sent (s.talkContext k) s.talk[k]).records := by
  have read := out.read readback
  refine ⟨_, next_of_eq (out.ends readback), ?_, ?_, ?_, (out.readBack readback).hears Talk.sent _⟩
  · rw [State.handHeard_lif, State.applyTalk_lif, read]
  · rw [State.handHeard_rtm, State.applyTalk_rtm, read]
  · rw [State.handHeard_smap, State.applyTalk_smap, read]

/-- The report of words that no halt waits for: what the completions make of the channel, and the requests (R112). -/
theorem State.burstOut.counted (out : s.burstOut slot sent k words) (free : s.talk[k].heldHalts = []) {o : Out Talk}
    (done : (s.talk[k].countSent words).completions (s.talkContext k) 3 = o)
    (kept : o.chan.heldHalts = [] ∨ o.chan.heldHalts = s.talk[k].heldHalts) :
    ∃ t, exec (.burstSent readback) s = .next t ∧ s.BurstReported t k (Talk.settle (s.talkContext k) o) := by
  obtain ⟨-, -, -, -, -, onLine⟩ := id out
  exact out.reported readback (Talk.sent_of_free onLine done (kept.elim id fun same => same.trans free))

/-- The report of words that a held halt waits for (R118). -/
theorem State.burstOut.halted (out : s.burstOut slot sent k words) {reason : HaltReason} {more : List HaltReason}
    (held : s.talk[k].heldHalts = reason :: more) (works : s.talk[k].state = .running ∨ s.talk[k].state = .starved)
    {o : Out Talk} (done : (s.talk[k].countSent words).completions (s.talkContext k) 3 = o)
    (kept : o.chan.heldHalts = s.talk[k].heldHalts) (state : o.chan.state = s.talk[k].state) :
    ∃ t, exec (.burstSent readback) s = .next t ∧ s.BurstReported t k
      ((Talk.settle (s.talkContext k) o).andThen (Talk.enterHalted (s.talkContext k) reason)) := by
  obtain ⟨-, -, -, -, -, onLine⟩ := id out
  exact out.reported readback (Talk.sent_of_held onLine done (kept.trans held) (state ▸ works))

/-! ### FILL (R112, R113) -/

/-- The channel with nothing on the line. -/
def Talk.offLine (t : Talk) : Talk := { t with onLine := none }

section
variable (out : s.burstOut slot sent k []) (free : s.talk[k].heldHalts = []) (ahead : s.talk[k].ring.ahead = none)
include out free

/-- The report of a FILL of a channel with nothing HELD counts nothing. -/
theorem State.burstOut.fill (unheld : heldOf s.talk[k].ring.current = none) :
    ∃ t, exec (.burstSent readback) s = .next t ∧
      s.BurstReported t k (Talk.settle (s.talkContext k) (Out.only s.talk[k].offLine)) := by
  refine out.counted readback free ?_ (.inr rfl)
  rw [Talk.countSent_nil]
  exact Talk.completions_of_unheld 3 unheld

/-- A channel that the report leaves in its state, with the requests that follow it. -/
theorem State.burstOut.fill_of_due (unheld : heldOf s.talk[k].ring.current = none)
    (due : s.talk[k].offLine.due = s.talk[k].offLine) :
    ∃ t, exec (.burstSent readback) s = .next t ∧ t.talk[k] = (Talk.pump (s.talkContext k) s.talk[k].offLine).chan ∧
      t.lif.activity = .idle ∧ t.cle = s.cle ∧
      t.mpt.waiting[talkChannel k] =
        s.mpt.waiting[talkChannel k] ++ (Talk.pump (s.talkContext k) s.talk[k].offLine).requests ∧
      (∀ j : TalkId, j ≠ k → t.talk[j] = s.talk[j]) := by
  obtain ⟨t, run, after⟩ := out.fill readback free unheld
  have chan := after.settled_chan
  have waiting := after.settled_waiting
  rw [Out.only_chan, due] at chan waiting
  exact ⟨t, run, chan, after.idle, after.settled_cle rfl, waiting, after.others⟩

include ahead

theorem State.burstOut.fill_of_idle (current : s.talk[k].ring.current = none) (quiet : s.talk[k].state = .halted ∨
      (s.talk[k].state = .starved ∧ s.talk[k].ring.ci = s.talk[k].ring.fi ∧ s.talk[k].staging = [] ∧
        s.talk[k].endWait = false)) :
    ∃ t, exec (.burstSent readback) s = .next t ∧ t.talk[k] = s.talk[k].offLine ∧
      t.lif.activity = .idle ∧ t.mpt.waiting[talkChannel k] = s.mpt.waiting[talkChannel k] ∧ t.cle = s.cle ∧
      (∀ j : TalkId, j ≠ k → t.talk[j] = s.talk[j]) := by
  obtain ⟨-, -, -, bound, -, -⟩ := id out
  have idle : s.talk[k].offLine.due = s.talk[k].offLine ∧
      Talk.pump (s.talkContext k) s.talk[k].offLine = Out.only s.talk[k].offLine := by
    rcases quiet with halted | ⟨starved, empty, staging, endWait⟩
    · exact ⟨Talk.due_of_halted halted, Talk.pump_of_stopped (.inr halted)⟩
    · have drained := Talk.due_of_drained (t := s.talk[k].offLine) (.inr starved) bound empty staging endWait
      refine ⟨drained.trans ?_, Talk.pump_of_empty _ current ahead empty⟩
      rw [← starved]
      rfl
  obtain ⟨t, run, chan, activity, cle, waiting, others⟩ :=
    out.fill_of_due readback free (congrArg heldOf current) idle.1
  rw [idle.2] at chan waiting
  exact ⟨t, run, chan, activity, waiting.trans (List.append_nil _), cle, others⟩

theorem State.burstOut.fill_of_filled
    (unheld : s.talk[k].ring.current = none ∨ s.talk[k].ring.current = some .fetching)
    (running : s.talk[k].state = .running) (filled : s.talk[k].ring.ci ≠ s.talk[k].ring.fi) :
    ∃ t asked, exec (.burstSent readback) s = .next t ∧ t.lif.activity = .idle ∧ t.cle = s.cle ∧
      t.talk[k] = { s.talk[k].offLine with
        ring := { s.talk[k].ring with current := t.talk[k].ring.current }
        requests := t.talk[k].requests } ∧
      (t.talk[k].ring.current = s.talk[k].ring.current ∨ t.talk[k].ring.current = some .fetching) ∧
      t.mpt.waiting[talkChannel k] = s.mpt.waiting[talkChannel k] ++ asked ∧
      (∀ x ∈ asked, x.purpose = .descFetch) ∧ (∀ j : TalkId, j ≠ k → t.talk[j] = s.talk[j]) := by
  obtain ⟨-, -, -, bound, -, -⟩ := id out
  have none : heldOf s.talk[k].ring.current = none := by rcases unheld with is | is <;> rw [is] <;> rfl
  obtain ⟨t, run, chan, activity, cle, waiting, others⟩ := out.fill_of_due readback free none
    (Talk.due_of_filled running bound filled)
  obtain ⟨only, current, requests⟩ :=
    Talk.pump_onlyFetches (s.talkContext k) (t := s.talk[k].offLine) none ahead
  rw [← chan] at only current
  exact ⟨t, _, run, activity, cle, only, current, waiting, requests, others⟩

end

/-! ### Completions (R89, R97) -/

section
variable {d : Descriptor} {rest : Nat} (out : s.burstOut slot sent k words) (free : s.talk[k].heldHalts = [])
  (current : s.talk[k].ring.current = some (.held d))
  (full : s.talk[k].ring.position + words.length = d.length + rest)
  (fits : ∀ a, s.talk[k].ring.ahead = some (.held a) → rest < a.length)

include current full fits

theorem State.completions_of_sound (sound : pendingHalt s.talk[k].ring.ahead = none) :
    (s.talk[k].countSent words).completions (s.talkContext k) 3 = s.completes k words d rest :=
  (Talk.completions_of_full (t := s.talk[k].countSent words) rfl current full fits).trans (Talk.complete_of_none sound)

include out free

theorem State.burstOut.completes (sound : pendingHalt s.talk[k].ring.ahead = none) :
    ∃ t, exec (.burstSent readback) s = .next t ∧
      s.BurstReported t k (Talk.settle (s.talkContext k) (s.completes k words d rest)) :=
  out.counted readback free (State.completions_of_sound current full fits sound) (.inr rfl)

/-- A failure pending on the ahead halts the channel as the ahead becomes the current (R97 step 4). -/
theorem State.burstOut.completes_failed {reason : HaltReason}
    (failed : pendingHalt s.talk[k].ring.ahead = some reason) : ∃ t, exec (.burstSent readback) s = .next t ∧
      s.BurstReported t k ((s.completes k words d rest).andThen (Talk.enterHalted (s.talkContext k) reason)) := by
  have completes := (Talk.completions_of_full (ctx := s.talkContext k) (t := s.talk[k].countSent words) rfl current full
    fits).trans (Talk.complete_of_pending rfl failed)
  have halted :
      ((s.completes k words d rest).andThen (Talk.enterHalted (s.talkContext k) reason)).chan.heldHalts = [] := by
    rw [Out.andThen_chan, Talk.enterHalted_eq]
    rfl
  obtain ⟨t, run, after⟩ := out.counted readback free completes (.inl halted)
  exact ⟨t, run, (Talk.settle_of_halted (s.completes k words d rest)) ▸ after⟩

end

/-- A channel that has sent everything starves, with its record (R113). -/
theorem State.BurstReported.starves {t : State} {d : Descriptor} {rest : Nat}
    (after : s.BurstReported t k (Talk.settle (s.talkContext k) (s.completes k words d rest)))
    (bound : s.talk[k].bound = some slot) (ahead : s.talk[k].ring.ahead = none)
    (last : s.talk[k].ring.ci + 1 = s.talk[k].ring.fi) (running : s.talk[k].state = .running)
    (few : s.talk[k].staging.length ≤ words.length) (endWait : s.talk[k].endWait = false) (more : d.final = false) :
    t.talk[k].state = .starved ∧ (Talk.pump (s.talkContext k) (s.completes k words d rest).chan.due).requests = [] ∧
      (s.records .channelStarved = true → s.evq.queue.length < 32 → ∃ more, t.evq.queue = s.evq.queue ++
        { kind := .channelStarved, channel := some (talkChannel k), slot := some slot, station := none,
          tag := none, detail := 0, stamp := s.stamp } :: more) := by
  have drained : (s.completes k words d rest).chan.due =
      { (s.completes k words d rest).chan with state := .starved } := by
    refine Talk.due_of_drained (t := (s.completes k words d rest).chan) (.inl running) bound last
      (List.drop_eq_nil_of_le few) ?_
    change (s.talk[k].endWait || d.final) = false
    rw [endWait, more]
    rfl
  have quiet : Talk.pump (s.talkContext k) (s.completes k words d rest).chan.due =
      Out.only (s.completes k words d rest).chan.due := by
    rw [drained]
    exact Talk.pump_of_empty _ ahead rfl last
  have starved : ((s.completes k words d rest).chan.rejudge (s.talkContext k)).records =
      [event .channelStarved 0 (channel := some (talkChannel k)) (slot := some slot)] := by
    have judged : (s.completes k words d rest).chan.judged = .starved := by
      rw [Talk.due_eq] at drained
      exact congrArg Talk.state drained
    have was : (s.completes k words d rest).chan.state ≠ .starved := by
      change s.talk[k].state ≠ .starved
      rw [running]
      decide
    rw [Talk.rejudge_records, if_pos ⟨judged, was⟩, ← bound]
    rfl
  refine ⟨?_, congrArg Out.requests quiet, fun recorded place => ?_⟩
  · rw [after.settled_chan, quiet, drained]
    rfl
  · obtain ⟨others, queue⟩ := after.queue
    obtain ⟨none, first⟩ := State.postAll_queue_cons (rs := []) (r := event .channelStarved 0
      (channel := some (talkChannel k)) (slot := some slot)) recorded place
    refine ⟨none ++ others, ?_⟩
    rw [queue, Talk.settle_records, starved]
    change (s.postAll [_]).evq.queue ++ others = _
    rw [first, List.append_assoc]
    rfl

/-! ### Held halts (R118) -/

/-- What an outcome of the completions leaves of the channel for a held halt. -/
structure Talk.Counted (v : Talk) (o : Out Talk) : Prop where
  heldHalts : o.chan.heldHalts = v.heldHalts
  state : o.chan.state = v.state
  wordsSent : o.chan.wordsSent = v.wordsSent
  bound : o.chan.bound = v.bound
  records : o.records = []

theorem Talk.counted_only (v : Talk) : v.Counted (Out.only v) := ⟨rfl, rfl, rfl, rfl, rfl⟩

theorem Talk.counted_completed (ctx : ChannelContext) (d : Descriptor) (rest : Nat) (v : Talk) :
    v.Counted (Talk.completed ctx d rest v) := ⟨rfl, rfl, rfl, rfl, rfl⟩

section
variable {ctx : ChannelContext} {o : Out Talk} {reason : HaltReason}

theorem Talk.settle_halt_of_held (memory : reason.writesBack) {d : Descriptor}
    (current : o.chan.ring.current = some (.held d)) :
    ((Talk.settle ctx o).chan.toChannelCore.halt ctx reason none).chan.ring.ci = o.chan.ring.ci + 1 ∧
      ((Talk.settle ctx o).chan.toChannelCore.halt ctx reason none).requests =
        [o.chan.ring.writebackRequest ctx o.chan.ring.ci
          [completionWord2 .memory o.chan.ring.position, completionWord3 ctx.stamp none]] := by
  rw [ChannelCore.halt_of_held ctx none memory (.inl (Talk.settle_current current)), completionWords_none,
    Talk.settle_ring]
  exact ⟨rfl, rfl⟩

theorem Talk.settle_halt_of_unheld (memory : reason.writesBack)
    (unheld : o.chan.ring.current = none ∨ o.chan.ring.current = some .fetching) :
    ((Talk.settle ctx o).chan.toChannelCore.halt ctx reason none).chan.ring.ci = o.chan.ring.ci ∧
      ((Talk.settle ctx o).chan.toChannelCore.halt ctx reason none).requests = [] := by
  have still : (Talk.settle ctx o).chan.ring.current = none ∨
      (Talk.settle ctx o).chan.ring.current = some .fetching := by
    rcases Talk.settle_current_cases (ctx := ctx) o with same | fetching
    · rwa [same]
    · exact .inr fetching
  rw [ChannelCore.halt_of_unheld ctx none memory still, Talk.settle_ring]
  exact ⟨rfl, rfl⟩

theorem Talk.settle_halt_of_bad :
    ((Talk.settle ctx o).chan.toChannelCore.halt ctx .badDescriptor none).chan.ring.ci = o.chan.ring.ci ∧
      ((Talk.settle ctx o).chan.toChannelCore.halt ctx .badDescriptor none).requests =
        [o.chan.ring.writebackRequest ctx o.chan.ring.ci [completionWord2 .bad 0, completionWord3 ctx.stamp none]] := by
  rw [ChannelCore.halt_bad, completionWords_none, Talk.settle_ring]
  exact ⟨rfl, rfl⟩

theorem Talk.settle_halt_of_fetchFailed :
    ((Talk.settle ctx o).chan.toChannelCore.halt ctx .fetchFailed none).chan.ring.ci = o.chan.ring.ci ∧
      ((Talk.settle ctx o).chan.toChannelCore.halt ctx .fetchFailed none).requests = [] := by
  rw [ChannelCore.halt_fetchFailed, Talk.settle_ring]
  exact ⟨rfl, rfl⟩

end

/-- A held halt takes its steps on what the completions and the requests leave (R118). -/
theorem State.burstOut.takesHalt (out : s.burstOut slot sent k words) {reason : HaltReason} {more : List HaltReason}
    (held : s.talk[k].heldHalts = reason :: more) (works : s.talk[k].state = .running ∨ s.talk[k].state = .starved)
    {o : Out Talk} (done : (s.talk[k].countSent words).completions (s.talkContext k) 3 = o)
    (counted : (s.talk[k].countSent words).Counted o) {ci : RingIndex} {last : List MemRequest}
    (use : ((Talk.settle (s.talkContext k) o).chan.toChannelCore.halt (s.talkContext k) reason none).chan.ring.ci = ci ∧
      ((Talk.settle (s.talkContext k) o).chan.toChannelCore.halt (s.talkContext k) reason none).requests = last)
    {detail : Nat} (isDetail : reason.detail o.chan.ring.ci = detail) :
    ∃ t asked, exec (.burstSent readback) s = .next t ∧ s.talkHalts t k reason.cause ∧ t.talk[k].ring.ci = ci ∧
      t.talk[k].wordsSent = s.talk[k].wordsSent + BitVec.ofNat 32 words.length ∧
      t.mpt.waiting[talkChannel k] = s.mpt.waiting[talkChannel k] ++ o.requests ++ asked ++ last ∧
      (∀ x ∈ asked, x.purpose ≠ .writeback) ∧ s.reports t (haltRecord (talkChannel k) detail) := by
  obtain ⟨t, run, after⟩ := out.halted readback held works done counted.heldHalts counted.state
  obtain ⟨chan, waiting, reports⟩ := after.halts
  have settled := (Talk.pump_pumped (s.talkContext k) o.chan.due).chan
  rw [← Talk.settle_chan] at settled
  refine ⟨t, (Talk.pump (s.talkContext k) o.chan.due).requests, run, after.talkHalts ?_, ?_, ?_, ?_,
    Talk.pump_purpose _ _, reports ?_ detail ?_⟩
  · rw [settled]
    exact counted.bound
  · rw [chan]
    exact use.1
  · rw [chan]
    change (Talk.settle (s.talkContext k) o).chan.wordsSent = _
    rw [settled]
    exact counted.wordsSent
  · rw [waiting, use.2, Talk.settle_requests]
    simp only [List.append_assoc]
  · rw [Talk.settle_records, counted.records, Talk.rejudge_records]
    split <;> simp
  · rw [settled]
    exact isDetail

end

/-- Settles O29: by what the readback forms, by where the words leave the buffer, and by whether a halt was held. -/
theorem sentBurstsAreCountedAndObserved : Obligations.SentBurstsAreCountedAndObserved := by
  refine ⟨fun s slot sent readback k words out => ?_, fun sent b readback count is => ?_,
    fun s slot sent readback k words d out free current reach noAhead => ?_,
    fun s slot sent readback k out free noAhead => ⟨fun none quiet => ?_, fun unheld running filled => ?_⟩,
    fun s slot sent readback k words d rest writeback out free current full fits wb => ?_,
    fun s slot sent readback k words reason more writeback out held works wb ci cause detail first last cases => ?_⟩
  · obtain ⟨t, run, idle, rtm, smap, hears⟩ := out.observed readback
    rw [sentObservation_eq] at smap
    rw [heardBack_eq] at hears
    exact ⟨t, run, idle, rtm, smap, _, hears, Talk.sent_stops _ _⟩
  · subst is
    exact readbackBurst_iff sent b readback
  · obtain ⟨-, -, -, bound, -, -⟩ := id out
    rcases reach.lt_or_eq with short | whole
    · obtain ⟨t, run, after⟩ := out.counted readback free
        (Talk.completions_of_short 3 (by exact current) (by exact short)) (.inr rfl)
      obtain ⟨onLine, staging, sent, kept, tag, sequence, late, endWait, ci, position⟩ := after.settled_same
      exact ⟨t, run, onLine, staging, sent, kept.trans bound, tag, sequence, late, fun _ => ⟨after.settled_asks,
          position, ci, after.settled_current current, endWait, after.settled_cle rfl⟩,
        fun whole => absurd whole short.ne, after.others, after.stc, after.mailbox, after.boundary⟩
    · have ahead : s.talk[k].ring.ahead = none := noAhead.resolve_right whole.not_lt
      have completes : (s.talk[k].countSent words).completions (s.talkContext k) 3 =
          Talk.completed (s.talkContext k) d 0 (s.talk[k].countSent words) :=
        (Talk.completions_of_full rfl (by exact current) (by exact whole) fun a held => by
          cases ahead.symm.trans held).trans (Talk.complete_of_none (by exact congrArg pendingHalt ahead))
      obtain ⟨t, run, after⟩ := out.counted readback free completes (.inr rfl)
      obtain ⟨onLine, staging, sent, kept, tag, sequence, late, endWait, ci, position⟩ := after.settled_same
      refine ⟨t, run, onLine, staging, sent, kept.trans bound, tag, sequence, late, fun short => absurd whole short.ne,
        fun _ => ⟨ci, position.trans (ite_self 0), endWait, ⟨_, after.settled_waiting⟩,
          fun more => after.settled_cle (by exact congrArg (· && !s.talk[k].closeTaken) more),
          fun final opened joined free => ?_⟩,
        after.others, after.stc, after.mailbox, after.boundary⟩
      have release : (d.final && !s.talk[k].closeTaken) = true := by rw [final, opened]; rfl
      rw [after.settled_joins release joined free]
      change { s.cle with queue := s.cle.queue ++
        [ClaimRequest.new .release k s.talk[k].bound (s.talk[k].tag.getD 0)] } = _
      rw [bound]
      rfl
  · exact out.fill_of_idle readback free noAhead none quiet
  · exact out.fill_of_filled readback free noAhead unheld running filled
  · obtain ⟨-, -, -, bound, -, -⟩ := id out
    cases pending : pendingHalt s.talk[k].ring.ahead with
    | none =>
      obtain ⟨t, run, after⟩ := out.completes readback free current full fits pending
      obtain ⟨onLine, staging, -, kept, -, -, -, endWait, ci, position⟩ := after.settled_same
      refine ⟨t, (Talk.pump (s.talkContext k) (s.completes k words d rest).chan.due).requests, run, onLine,
        kept.trans bound, endWait, ?_, fun sound => ?_, fun a ahead => ⟨ci, after.settled_current ahead, ?_, staging⟩,
        fun b ahead => ?_, fun ahead => ?_, fun a ahead => ?_, fun ahead last running few quiet more =>
          after.starves bound ahead last running few quiet more⟩
      · rw [after.settled_waiting, wb]
        rfl
      · have asks := after.settled_asks
        rw [State.completes, Talk.completed_chan (by
          rcases sound with ⟨-, none⟩ | ⟨a, ahead⟩
          · exact .inr none
          · exact .inl (Option.isSome_iff_exists.mpr ⟨_, ahead⟩))] at asks
        rw [wb]
        exact asks
      · exact position.trans (if_pos (Option.isSome_iff_exists.mpr ⟨_, ahead⟩))
      all_goals
        rw [ahead] at pending
        cases pending
    | some reason =>
      obtain ⟨t, run, after⟩ := out.completes_failed readback free current full fits pending
      obtain ⟨chan, waiting, reports⟩ := after.halts
      refine ⟨t, ((s.completes k words d rest).chan.toChannelCore.halt (s.talkContext k) reason none).requests, run,
        by rw [chan]; rfl, by rw [chan]; exact bound, by rw [chan]; rfl, by rw [waiting, wb]; rfl, fun sound => ?_,
        fun a ahead => ?_, fun b ahead => ?_, fun ahead => ?_, fun a ahead => ?_, fun ahead => ?_⟩
      · rcases sound with ⟨ahead, -⟩ | ⟨a, ahead⟩
        all_goals
          rw [ahead] at pending
          cases pending
      · rw [ahead] at pending
        cases pending
      · rw [ahead] at pending
        cases pending
        refine ⟨by rw [chan]; rfl, by rw [chan]; rfl, by rw [chan]; rfl, by rw [chan]; rfl, by rw [chan]; rfl,
          by rw [chan]; rfl, ?_, reports (Nat.zero_le 2) 1 rfl⟩
        rw [ChannelCore.halt_bad, completionWords_none, wb]
        rfl
      · rw [ahead] at pending
        cases pending
        exact ⟨by rw [chan]; rfl, by rw [chan]; rfl, by rw [chan]; rfl, by rw [chan]; rfl, by rw [chan]; rfl, rfl,
          reports (Nat.zero_le 2) _ rfl⟩
      · have position : (s.completes k words d rest).chan.ring.position = rest :=
          if_pos (Option.isSome_iff_exists.mpr ⟨_, ahead⟩)
        have use := fun memory => ChannelCore.halt_of_held (reason := reason)
          (c := (s.completes k words d rest).chan.toChannelCore) (s.talkContext k) none memory (.inr ahead)
        rw [ahead] at pending
        cases pending
        have use := use HaltReason.dataFailed_writesBack
        rw [completionWords_none, position] at use
        refine ⟨by rw [chan]; rfl, by rw [chan]; rfl, by rw [chan]; rfl, ?_, by rw [chan, use]; rfl,
          by rw [chan, use]; rfl, ?_, reports (Nat.zero_le 2) _ rfl⟩
        · rw [chan, use]
          exact ringIndex_succ_succ _
        · rw [use, wb]
          rfl
      · rw [ahead] at pending
        cases pending
  · have v := Talk.counted_only (s.talk[k].countSent words)
    have finish := fun {o : Out Talk} => out.takesHalt (o := o) readback held works
    rcases cases with ⟨d, current, short, why, rfl, rfl, rfl, rfl⟩ |
      ⟨d, i, current, rfl, whole, ahead, rfl, rfl, rfl, rfl, rfl⟩ |
      ⟨d, a, i, rest, current, ahead, rfl, full, fits, rfl, rfl, rfl, rfl, rfl⟩ |
      ⟨i, unheld, rfl, rfl, rfl, rfl, rfl, rfl⟩ | ⟨b, bad, rfl, rfl, rfl, rfl, rfl, rfl⟩ |
      ⟨failed, rfl, rfl, rfl, rfl, rfl, rfl⟩
    · have done := Talk.completions_of_short (ctx := s.talkContext k) (t := s.talk[k].countSent words) 3 current short
      rw [wb]
      rcases why with ⟨rfl, rfl⟩ | ⟨i, rfl, rfl⟩
      · exact finish done v (Talk.settle_halt_of_held HaltReason.dataFailed_writesBack current) rfl
      · exact finish done v (Talk.settle_halt_of_held (HaltReason.writebackFailed_writesBack i) current) rfl
    · have sound : pendingHalt s.talk[k].ring.ahead = none := by rcases ahead with is | is <;> rw [is] <;> rfl
      have fits : ∀ a, s.talk[k].ring.ahead = some (.held a) → 0 < a.length := fun a held => by
        rcases ahead with is | is <;> cases is.symm.trans held
      rw [wb]
      exact finish (State.completions_of_sound (rest := 0) current whole fits sound) (Talk.counted_completed _ _ _ _)
        (Talk.settle_halt_of_unheld (HaltReason.writebackFailed_writesBack i) ahead) rfl
    · have sound : pendingHalt s.talk[k].ring.ahead = none := by rw [ahead]; rfl
      have fits : ∀ b, s.talk[k].ring.ahead = some (.held b) → rest < b.length := fun b held => by
        cases ahead.symm.trans held
        exact fits
      have position : (s.completes k words d rest).chan.ring.position = rest :=
        if_pos (Option.isSome_iff_exists.mpr ⟨_, ahead⟩)
      obtain ⟨passed, wrote⟩ := Talk.settle_halt_of_held (ctx := s.talkContext k) (o := s.completes k words d rest)
        (HaltReason.writebackFailed_writesBack i) ahead
      rw [position] at wrote
      rw [wb, wb]
      exact finish (State.completions_of_sound current full fits sound) (Talk.counted_completed _ _ _ _)
        ⟨passed.trans (ringIndex_succ_succ _), wrote⟩ rfl
    · have none : heldOf s.talk[k].ring.current = none := by rcases unheld with is | is <;> rw [is] <;> rfl
      exact finish (Talk.completions_of_unheld 3 none) v
        (Talk.settle_halt_of_unheld (HaltReason.writebackFailed_writesBack i) unheld) rfl
    · rw [wb]
      exact finish (Talk.completions_of_unheld 3 (congrArg heldOf bad)) v Talk.settle_halt_of_bad rfl
    · exact finish (Talk.completions_of_unheld 3 (congrArg heldOf failed)) v Talk.settle_halt_of_fetchFailed rfl

end Sys2Proof.Machine
